-- ==== Sys2Proof/Word.lean ====
section
/-! DEFINITION. The widths of the block (spec/00_scope.md R6, R7): each a named
constant, and every value an unsigned bit vector of one of them. -/

namespace Sys2Proof

namespace Config

/-- `DATA_W`, the bus data width (R6). -/
@[simp] abbrev dataW : Nat := 8

/-- `MEM_ADDR_W`, the width of a memory address (R6). -/
@[simp] abbrev memAddrW : Nat := 16

/-- `PORT_W`, the width of a decoded port number (R6). -/
@[simp] abbrev portW : Nat := 8

/-- `PORT_PRESENTED_W`, the width of a port value as the transaction word carries it (R6, spec D2). -/
@[simp] abbrev portPresentedW : Nat := 16

/-- `CURSOR_W`, the width of a device's cursor and size (R6). -/
@[simp] abbrev cursorW : Nat := 16

/-- The width of the transaction word (spec/30_encoding.md R45). -/
@[simp] abbrev wordW : Nat := 26

end Config

/-- One byte of the bus (R6). -/
abbrev Byte := BitVec Config.dataW

/-- A memory address (R6). -/
abbrev Addr := BitVec Config.memAddrW

/-- A decoded port number (R6, R50). -/
abbrev Port := BitVec Config.portW

/-- A port value as presented, before the mask (R6, R47). -/
abbrev PresentedPort := BitVec Config.portPresentedW

/-- A device's cursor or its size (R6, R13, R16), and the core's register pair (R62). -/
abbrev Word16 := BitVec Config.cursorW

/-- The transaction word, bit 25 the most significant (spec/30_encoding.md R45). -/
abbrev TxWord := BitVec Config.wordW

end Sys2Proof
end

