-- ==== Sys2Proof/Config.lean ====
section
/-! DEFINITION. What is fixed for a run: the named constants of spec/00_scope.md R6, the run's parameters
(spec/10_state.md R31), and the opaque CPU core as a parameter (spec/44_execution_loop.md R83). -/

namespace Sys2Proof

/-- `TOGGLE_MODE` (R6, R75): `shared` is the default and the normative behaviour. -/
inductive ToggleMode where
  | shared
  | independent
  deriving DecidableEq, Repr, Inhabited

/-- `OUTPUT_MODE` (R6, R88): `console` is the default. -/
inductive OutputMode where
  | console
  | memDump
  deriving DecidableEq, Repr, Inhabited

/-- The parameters that change what an operation or the halt does (R31, R54). `State` carries them so that every
statement speaks of every mode; no step changes them. DESIGN CHOICE, log 6, safe. -/
structure Params where
  toggleMode : ToggleMode
  debugTrace : Bool
  outputMode : OutputMode
  deriving DecidableEq, Repr, Inhabited

/-- What the host supplies before reset (R6, R9): the three images, the input stream (finite, spec D15), the
memory content outside the images (`MEM_INIT`, spec D7) and the parameters. -/
structure RunConfig where
  bootImg : List Byte
  progImg : List Byte
  fsImg : List Byte
  input : List Byte
  memInit : Addr → Byte
  params : Params

/-- What the core does next inside a `step()` (R83): it presents a transaction word and goes to the coded state `k`,
or its `step()` returns in the coded state `k`. -/
inductive CoreMove where
  | present (w : TxWord) (k : Nat)
  | finish (k : Nat)
  deriving DecidableEq, Repr, Inhabited

/-- The opaque CPU core as a parameter of the model (R25, R83). Its own state is coded as a `Nat`, its state after
`reset()` as 0 (DESIGN CHOICE, log 1, safe).
* `halted`: the output the controller reads between steps (R85).
* `move`: its next move, a function of its own state and of the byte the last transaction returned (`none` at the
  start of a step and after a write).
* `acc`, `pair`: the two registers of the debug summary (R87), opaque values. -/
structure CpuCore where
  halted : Nat → Bool
  move : Nat → Option Byte → CoreMove
  acc : Nat → Byte
  pair : Nat → Word16
  deriving Inhabited

namespace Config

/-- `MEM_SIZE` (R6, R11). -/
abbrev memSize : Nat := 65536

/-- `IN_CAP` (R6, R13). -/
abbrev inCap : Nat := 32768

/-- `FS_CAP` (R6, R14): 65535, not 65536. -/
abbrev fsCap : Nat := 65535

/-- `BOOT_BASE` (R6, R104). -/
abbrev bootBase : Nat := 0x0000

/-- `PROG_BASE` (R6, R105). -/
abbrev progBase : Nat := 0x4800

/-- The mapped ports (R6, R52). -/
def stdioPort : Port := 0
def inSeekPort : Port := 1
def fsDataPort : Port := 2
def fsSeekPort : Port := 3

/-- The lowest unmapped port (R52, R60). -/
def firstUnmappedPort : Port := 4

/-- A region of the address map (R33). -/
structure Region where
  base : Nat
  size : Nat
  use : String
  deriving DecidableEq, Repr

/-- The address map of R33: a convention only, "not enforced at runtime". No definition of the machine reads it. -/
def regions : List Region :=
  [ ⟨0x0000, 0x4000, "boot/kernel code"⟩,
    ⟨0x4000, 0x0800, "kernel data/stack"⟩,
    ⟨0x4800, 0x1000, "hosted program code"⟩,
    ⟨0x5800, 0xA800, "hosted program data"⟩ ]

/-- What an address that the memory list does not list reads as. It is the default of the model's list form and no
statement about the hardware: `bootstrap` writes `MEM_INIT` at every address (R104). In `State.reset` it stands for
`MEM_INIT` = 0. DESIGN CHOICE, log 4 and log 5, unsafe for a claim that rests on that value. -/
def unlistedByte : Byte := 0

/-- The code of the core's state after `reset()` (R109). DESIGN CHOICE, log 1, safe: a naming. -/
def coreResetCode : Nat := 0

/-- The default parameters (R6): Shared, no debug trace, Console. -/
def defaultParams : Params := ⟨.shared, false, .console⟩

/-- The run whose bootstrap `State.reset` is: empty images and input, `MEM_INIT` = 0, default parameters.
DESIGN CHOICE, log 4, unsafe for a claim that rests on these values. -/
def defaultRun : RunConfig := ⟨[], [], [], [], fun _ => 0, defaultParams⟩

/-- The core of `Sys2Proof.core`: an uninterpreted constant, so that nothing can be proved that does not hold of
every core meeting the contract (R83: "Claims quantify over every core that meets this contract, or name one").
DESIGN CHOICE, log 2, safe. -/
opaque core : CpuCore

end Config
end Sys2Proof
end

