-- ==== Sys2Proof/Syntax.lean ====
section
/-! DEFINITION. The twelve operations of spec/30_encoding.md R51, one constructor each. The six IN_UNMAPPED rows of the
opcode table are one operation with the port as its operand, and so are the six OUT_UNMAPPED rows (log 14). -/

namespace Sys2Proof

/-- A decoded transaction. No constructor carries an ignored bit (R49). -/
inductive Instr where
  /-- MEM_RD (R57): read the byte at `a`. -/
  | memRd (a : Addr)
  /-- MEM_WR (R58): write `d` at `a`. -/
  | memWr (a : Addr) (d : Byte)
  /-- IN_STDIO (R66): read of port 0. -/
  | inStdio
  /-- IN_INSEEK (R76): read of port 1. -/
  | inInseek
  /-- IN_FSDATA (R68): read of port 2. -/
  | inFsdata
  /-- IN_FSSEEK (R78): read of port 3. -/
  | inFsseek
  /-- IN_UNMAPPED (R60): read of a port in 4..255. -/
  | inUnmapped (port : Port)
  /-- OUT_STDIO (R67): write to port 0. -/
  | outStdio (d : Byte)
  /-- OUT_INSEEK (R77): write to port 1. -/
  | outInseek (d : Byte)
  /-- OUT_FSDATA (R69): write to port 2. -/
  | outFsdata (d : Byte)
  /-- OUT_FSSEEK (R79): write to port 3. -/
  | outFsseek (d : Byte)
  /-- OUT_UNMAPPED (R61): write to a port in 4..255. -/
  | outUnmapped (port : Port) (d : Byte)
  deriving DecidableEq, Repr

namespace Instr

/-- The mnemonic of spec/opcode_table.json. -/
def mnemonic : Instr → String
  | memRd _ => "MEM_RD"
  | memWr _ _ => "MEM_WR"
  | inStdio => "IN_STDIO"
  | inInseek => "IN_INSEEK"
  | inFsdata => "IN_FSDATA"
  | inFsseek => "IN_FSSEEK"
  | inUnmapped _ => "IN_UNMAPPED"
  | outStdio _ => "OUT_STDIO"
  | outInseek _ => "OUT_INSEEK"
  | outFsdata _ => "OUT_FSDATA"
  | outFsseek _ => "OUT_FSSEEK"
  | outUnmapped _ _ => "OUT_UNMAPPED"

/-- Is the operation a port transaction (`S` = 1, R46)? -/
def isPort : Instr → Bool
  | memRd _ => false
  | memWr _ _ => false
  | inStdio => true
  | inInseek => true
  | inFsdata => true
  | inFsseek => true
  | inUnmapped _ => true
  | outStdio _ => true
  | outInseek _ => true
  | outFsdata _ => true
  | outFsseek _ => true
  | outUnmapped _ _ => true

/-- Is the operation a write (`W` = 1, R46)? -/
def isWrite : Instr → Bool
  | memRd _ => false
  | memWr _ _ => true
  | inStdio => false
  | inInseek => false
  | inFsdata => false
  | inFsseek => false
  | inUnmapped _ => false
  | outStdio _ => true
  | outInseek _ => true
  | outFsdata _ => true
  | outFsseek _ => true
  | outUnmapped _ _ => true

end Instr
end Sys2Proof
end

