-- ==== Sys2Proof/Decode.lean ====
section
/-! DEFINITION. The transaction word (spec/30_encoding.md): its fields, the decoder of R51, the words of the four
callbacks (R46), the encoder, the opcode table's match/mask rows, and the decoder on numbers that the host reads. -/

namespace Sys2Proof

/-! ### Fields (R45) -/

/-- `S`, bit 25: true for a port transaction. -/
def TxWord.space (w : TxWord) : Bool := w.getLsbD 25

/-- `W`, bit 24: true for a write. -/
def TxWord.dir (w : TxWord) : Bool := w.getLsbD 24

/-- `A`, bits 23:8, as the address of a memory transaction. -/
def TxWord.addr (w : TxWord) : Addr := w.extractLsb' Config.dataW Config.memAddrW

/-- `A`, bits 23:8, as the presented value of a port transaction (R47). -/
def TxWord.presented (w : TxWord) : PresentedPort := w.extractLsb' Config.dataW Config.portPresentedW

/-- `D`, bits 7:0. -/
def TxWord.data (w : TxWord) : Byte := w.extractLsb' 0 Config.dataW

/-- The word with the given fields (R45); `a` is the field `A`, an address or a presented port value of the same 16
bits. -/
def TxWord.assemble (space dir : Bool) (a : Addr) (d : Byte) : TxWord :=
  BitVec.ofBool space ++ BitVec.ofBool dir ++ a ++ d

/-- The effective port: the presented value masked to its low 8 bits (R47, R50). -/
def maskPort (p : PresentedPort) : Port := p.setWidth Config.portW

/-! ### Decoding (R51) -/

/-- A port read by its effective port (R51, R52). -/
def decodePortRead (port : Port) : Instr :=
  if port = Config.stdioPort then .inStdio
  else if port = Config.inSeekPort then .inInseek
  else if port = Config.fsDataPort then .inFsdata
  else if port = Config.fsSeekPort then .inFsseek
  else .inUnmapped port

/-- A port write by its effective port (R51, R52). -/
def decodePortWrite (port : Port) (d : Byte) : Instr :=
  if port = Config.stdioPort then .outStdio d
  else if port = Config.inSeekPort then .outInseek d
  else if port = Config.fsDataPort then .outFsdata d
  else if port = Config.fsSeekPort then .outFsseek d
  else .outUnmapped port d

/-- The decode function of R51: total, one operation for every word; it reads no state (R54) and no ignored bit
(R49). -/
def decode (w : TxWord) : Instr :=
  match TxWord.space w, TxWord.dir w with
  | false, false => .memRd (TxWord.addr w)
  | false, true => .memWr (TxWord.addr w) (TxWord.data w)
  | true, false => decodePortRead (maskPort (TxWord.presented w))
  | true, true => decodePortWrite (maskPort (TxWord.presented w)) (TxWord.data w)

/-! ### The callbacks' words (R46, R55) and the encoder -/

/-- `RD a`, the callback `memory.read(a)` (R46, R55). The ignored `D` is 0. -/
def rdWord (a : Addr) : TxWord := TxWord.assemble false false a 0

/-- `WR a, d`, the callback `memory.write(a, d)` (R46, R55). -/
def wrWord (a : Addr) (d : Byte) : TxWord := TxWord.assemble false true a d

/-- `IN p`, the callback `port.read(p)` (R46, R55); a value wider than 16 bits is truncated (R47). -/
def inWord (p : Nat) : TxWord := TxWord.assemble true false (BitVec.ofNat Config.portPresentedW p) 0

/-- `OUT p, d`, the callback `port.write(p, d)` (R46, R55); a value wider than 16 bits is truncated (R47). -/
def outWord (p : Nat) (d : Byte) : TxWord := TxWord.assemble true true (BitVec.ofNat Config.portPresentedW p) d

/-- The word of a well-formed operation, every ignored bit 0 (30_encoding.md section 3). -/
def encode : Instr → TxWord
  | .memRd a => rdWord a
  | .memWr a d => wrWord a d
  | .inStdio => inWord Config.stdioPort.toNat
  | .inInseek => inWord Config.inSeekPort.toNat
  | .inFsdata => inWord Config.fsDataPort.toNat
  | .inFsseek => inWord Config.fsSeekPort.toNat
  | .inUnmapped port => inWord port.toNat
  | .outStdio d => outWord Config.stdioPort.toNat d
  | .outInseek d => outWord Config.inSeekPort.toNat d
  | .outFsdata d => outWord Config.fsDataPort.toNat d
  | .outFsseek d => outWord Config.fsSeekPort.toNat d
  | .outUnmapped port d => outWord port.toNat d

/-! ### The opcode table (30_encoding.md section 3) -/

/-- One match/mask row. -/
structure OpcodeRow where
  pattern : TxWord
  mask : TxWord
  mnemonic : String
  deriving DecidableEq, Repr

/-- Does the word fall under the row? -/
def OpcodeRow.covers (r : OpcodeRow) (w : TxWord) : Bool := w &&& r.mask == r.pattern

/-- The rows of memory transactions and port reads. -/
def opcodeRowsRead : List OpcodeRow :=
  [
    ⟨0x0000000, 0x3000000, "MEM_RD"⟩,
    ⟨0x1000000, 0x3000000, "MEM_WR"⟩,
    ⟨0x2000000, 0x300FF00, "IN_STDIO"⟩,
    ⟨0x2000100, 0x300FF00, "IN_INSEEK"⟩,
    ⟨0x2000200, 0x300FF00, "IN_FSDATA"⟩,
    ⟨0x2000300, 0x300FF00, "IN_FSSEEK"⟩,
    ⟨0x2000400, 0x300FC00, "IN_UNMAPPED"⟩,
    ⟨0x2000800, 0x300F800, "IN_UNMAPPED"⟩,
    ⟨0x2001000, 0x300F000, "IN_UNMAPPED"⟩,
    ⟨0x2002000, 0x300E000, "IN_UNMAPPED"⟩,
    ⟨0x2004000, 0x300C000, "IN_UNMAPPED"⟩,
    ⟨0x2008000, 0x3008000, "IN_UNMAPPED"⟩ ]

/-- The rows of port writes. -/
def opcodeRowsWrite : List OpcodeRow :=
  [
    ⟨0x3000000, 0x300FF00, "OUT_STDIO"⟩,
    ⟨0x3000100, 0x300FF00, "OUT_INSEEK"⟩,
    ⟨0x3000200, 0x300FF00, "OUT_FSDATA"⟩,
    ⟨0x3000300, 0x300FF00, "OUT_FSSEEK"⟩,
    ⟨0x3000400, 0x300FC00, "OUT_UNMAPPED"⟩,
    ⟨0x3000800, 0x300F800, "OUT_UNMAPPED"⟩,
    ⟨0x3001000, 0x300F000, "OUT_UNMAPPED"⟩,
    ⟨0x3002000, 0x300E000, "OUT_UNMAPPED"⟩,
    ⟨0x3004000, 0x300C000, "OUT_UNMAPPED"⟩,
    ⟨0x3008000, 0x3008000, "OUT_UNMAPPED"⟩ ]

/-- The 22 rows of spec/opcode_table.json. -/
def opcodeTable : List OpcodeRow := opcodeRowsRead ++ opcodeRowsWrite

/-! ### Words given as numbers -/

/-- Why a number is no transaction. -/
inductive DecodeError where
  /-- The number needs more than 26 bits: it is not one transaction word (R45). DESIGN CHOICE, log 16, safe. -/
  | notATransactionWord
  deriving DecidableEq, Repr

/-- The decoder on a number: a word of 26 bits decodes by R51; a wider number is refused by name. -/
def decodeNumber (w : Nat) : Except DecodeError Instr :=
  if w < 2 ^ Config.wordW then .ok (decode (BitVec.ofNat Config.wordW w)) else .error .notATransactionWord

/-- The low `nbits` bits of `w`, every higher bit 0: how the host hands over a table row's word. -/
def tableWord (nbits w : Nat) : Nat := w % 2 ^ nbits

/-- The instruction the decoder reads from a table word. -/
def decodeTableWord (nbits w : Nat) : Option Instr :=
  match decodeNumber (tableWord nbits w) with
  | .ok i => some i
  | .error _ => none

end Sys2Proof
end

