-- ==== Sys2Proof/Machine/State.lean ====
section
/-! DEFINITION. The state of the block (spec/10_state.md R10) as plain data, the reasons a step can stop, and the state
after reset. -/

namespace Sys2Proof
namespace Machine

/-- The memory image `MEM` (R11): the listed (address, byte) pairs; every other address reads as
`Config.unlistedByte`. The canonical form is `Memory.wf` (Machine/Ops.lean). -/
abbrev Memory := List Host.Cell

/-- The two seekable block devices (R12): `inp` is the spec's IN, `fs` its FS. -/
inductive DevId where
  | inp
  | fs
  deriving DecidableEq, Repr

/-- The direction of a seek-port access (R62): `tell` is a read, `seek` a write. -/
inductive Dir where
  | tell
  | seek
  deriving DecidableEq, Repr

/-- Which half of the 16-bit cursor an access carries (R62, R80). -/
inductive Half where
  | high
  | low
  deriving DecidableEq, Repr

/-- A seekable device (R12, R18). `buffer` holds exactly `size` bytes (R15, spec D23; log 10). In Shared mode the one
flag is `pending`; in Independent mode the two flags are `pendingRd` and `pendingWr`, and the flags of the other mode
stay false (log 11). -/
structure Device where
  buffer : List Byte
  size : Word16
  cursor : Word16
  pending : Bool
  pendingRd : Bool
  pendingWr : Bool
  deriving DecidableEq, Repr

/-- A diagnostic record (spec/41_port_dispatch.md R62). -/
inductive DiagRecord where
  | unmappedRead (port : Port)
  | unmappedWrite (port : Port) (value : Byte)
  | seekTrace (dev : DevId) (dir : Dir) (phase : Half) (byte : Byte)
  | haltSummary (acc : Byte) (pair : Word16)
  deriving DecidableEq, Repr

/-- The controller's state (R23, R84). -/
inductive LoopState where
  | running
  | halted
  deriving DecidableEq, Repr

/-- Where the run stands between the controller, the core and the block (R5, R83, R85). The model's own field, log 2. -/
inductive BusPhase where
  /-- Between two CPU steps: the controller tests `halted` next (R85). -/
  | between
  /-- Inside a CPU step: the core moves next (R83). -/
  | inStep
  /-- The core presents the transaction word `w`: the block applies it next (R46, R83). -/
  | presenting (w : TxWord)
  deriving DecidableEq, Repr

/-- How the run ended (R89): every halted run ends with the same success. The host's number for it is not modelled
(spec D18). -/
inductive ExitStatus where
  | success
  deriving DecidableEq, Repr

/-- The state of the block with the core's own coded state beside it (R10, R25). The first six fields are R10's record;
`output` and `exit` are the process-level outputs (R3, R87–R89); `params` the run's parameters (R31); `cpu`, `bus` and
`reply` the interface to the opaque core (R83). -/
structure State where
  mem : Memory
  inDev : Device
  fsDev : Device
  console : List Byte
  diag : List DiagRecord
  loop : LoopState
  params : Params
  cpu : Nat
  bus : BusPhase
  /-- The data byte the last transaction returned to the core (R46): `none` after a write and before any transaction
  of a CPU step. The model's own field, log 7. -/
  reply : Option Byte
  /-- The bytes flushed to the host at halt (R87, R88): `none` until then. -/
  output : Option (List Byte)
  /-- The end of the run (R89): `none` until the flush. -/
  exit : Option ExitStatus
  deriving DecidableEq, Repr

/-- Why a step can stop. -/
inductive Fault where
  /-- Raised by `stepWith` when the controller is Halted: the run has ended with success and "No state is reachable
  from *Halted*" (R86, R89). DEDUCED, log 8, safe: the hardware has no further step either. -/
  | runEnded
  deriving DecidableEq, Repr

/-- One of the three images (R6). -/
inductive Image where
  | boot
  | prog
  | fs
  deriving DecidableEq, Repr

/-- Why an instruction or a configuration has no meaning. -/
inductive Refusal where
  /-- Raised by `exec` for an instruction that has no meaning yet. No instruction of this model. Safe. -/
  | notModelled (mnemonic : String)
  /-- Raised by `bootstrap` for a configuration whose image does not fit (R110, spec D8: "refuses a configuration that
  breaks a precondition and gives it no run"). No step raises it. Safe. -/
  | imageDoesNotFit (image : Image)
  deriving DecidableEq, Repr

/-- A device with no content, cursor 0 and every flag false (R30 for an empty image or input). -/
def emptyDevice : Device := ⟨[], 0, 0, false, false, false⟩

/-- The state right after reset (R30, R109) of the default run: images, input and `MEM_INIT` as
`Config.defaultRun` has them (DESIGN CHOICE, log 4, unsafe), everything else as R30 states. `bootstrap`
(Machine/Bootstrap.lean) gives the state after reset for every configuration. -/
def State.reset : State where
  mem := []
  inDev := emptyDevice
  fsDev := emptyDevice
  console := []
  diag := []
  loop := .running
  params := Config.defaultParams
  cpu := Config.coreResetCode
  bus := .between
  reply := none
  output := none
  exit := none

end Machine
end Sys2Proof
end

