-- ==== Sys2Proof/Machine/Operands.lean ====
section
/-! DEFINITION. The operand forms: the halves of a 16-bit cursor on the 8-bit seek port (spec/20_memory.md R36,
spec/43_seek_tell.md R72, R73), and the capacity of a device (spec/10_state.md R13, R14). -/

namespace Sys2Proof
namespace Machine

/-- `v[15:8]` = `v >> 8` (R72). -/
def highByte (v : Word16) : Byte := v.extractLsb' Config.dataW Config.dataW

/-- `v[7:0]` = `v & 0xFF` (R72). -/
def lowByte (v : Word16) : Byte := v.extractLsb' 0 Config.dataW

/-- `zext_16(v)` (R48, R73). -/
def widen (v : Byte) : Word16 := v.setWidth Config.cursorW

/-- The cursor after the first half of a seek: `zext_16(v) << 8`, the low byte cleared (R73). -/
def seekHigh (v : Byte) : Word16 := widen v <<< Config.dataW

/-- The cursor after the second half of a seek: `cursor | zext_16(v)`, an OR and not a replacement (R73). -/
def seekLow (cursor : Word16) (v : Byte) : Word16 := cursor ||| widen v

/-- The 16-bit value with the given halves, high byte first (R36, R81). -/
def joinHalves (h l : Byte) : Word16 := h ++ l

/-- `d.CAP` (R13, R14). -/
def DevId.cap : DevId → Nat
  | .inp => Config.inCap
  | .fs => Config.fsCap

end Machine
end Sys2Proof
end

