-- ==== Sys2Proof/Machine/Flags.lean ====
section
/-! DEFINITION. The flags of the block are the toggle flags of the seek ports (spec/10_state.md R18, R28): which flag an
access consults, and how it toggles (spec/43_seek_tell.md R74, R75). -/

namespace Sys2Proof
namespace Machine

/-- The flag an access in direction `dir` consults: the one shared flag, or the flag of its direction (R74, R75). -/
def Device.flag (m : ToggleMode) (dir : Dir) (d : Device) : Bool :=
  match m, dir with
  | .shared, _ => d.pending
  | .independent, .tell => d.pendingRd
  | .independent, .seek => d.pendingWr

/-- Write the flag an access in direction `dir` consults. -/
def Device.setFlag (m : ToggleMode) (dir : Dir) (v : Bool) (d : Device) : Device :=
  match m, dir with
  | .shared, _ => { d with pending := v }
  | .independent, .tell => { d with pendingRd := v }
  | .independent, .seek => { d with pendingWr := v }

/-- Every seek-port access toggles the flag it consults (R74, R75). -/
def Device.toggle (m : ToggleMode) (dir : Dir) (d : Device) : Device :=
  d.setFlag m dir (!d.flag m dir)

/-- The half an access carries: high when the flag it consults is false (R18, R80). -/
def Device.half (m : ToggleMode) (dir : Dir) (d : Device) : Half :=
  match d.flag m dir with
  | false => .high
  | true => .low

/-- Every flag false (R108). -/
def Device.clearFlags (d : Device) : Device :=
  { d with pending := false, pendingRd := false, pendingWr := false }

end Machine
end Sys2Proof
end

