-- ==== Sys2Proof/Machine/Ops.lean ====
section
/-! DEFINITION. The named operations over memory, devices, logs and the interface to the core. There is no operation
for taking an exception: the block raises none and saves no state (spec/60_exceptions.md R92, R98). -/

namespace Sys2Proof
namespace Machine

/-! ### Memory (R8, R11, R32) -/

/-- `MEM[a]` (R8). -/
def Memory.read : Memory → Nat → Byte
  | [], _ => Config.unlistedByte
  | (b, v) :: rest, a => if a = b then v else Memory.read rest a

/-- `MEM[a] <- v` (R8), in the canonical form: an entry equal to `Config.unlistedByte` is not listed. -/
def Memory.write : Memory → Nat → Byte → Memory
  | [], a, v => if v = Config.unlistedByte then [] else [(a, v)]
  | (b, w) :: rest, a, v =>
    if a < b then
      if v = Config.unlistedByte then (b, w) :: rest else (a, v) :: (b, w) :: rest
    else if a = b then
      if v = Config.unlistedByte then rest else (a, v) :: rest
    else (b, w) :: Memory.write rest a v

/-- Addresses strictly rising from `lo` on, inside the address space, no entry equal to an unlisted one. -/
def Memory.wfFrom : Nat → Memory → Bool
  | _, [] => true
  | lo, (a, v) :: rest =>
    decide (lo ≤ a) && decide (a < Config.memSize) && decide (v ≠ Config.unlistedByte) && Memory.wfFrom (a + 1) rest

/-- The canonical form of a memory. -/
def Memory.wf (m : Memory) : Bool := Memory.wfFrom 0 m

/-- Write `f` at every address below `n` (R104's loop over the address space). -/
def Memory.fill (f : Nat → Byte) : Nat → Memory → Memory
  | 0, m => m
  | n + 1, m => Memory.fill f n (m.write n (f n))

/-- Write the bytes at `base`, `base + 1`, … (the image loops of R104 and R105). -/
def Memory.load : Nat → List Byte → Memory → Memory
  | _, [], m => m
  | base, b :: bs, m => Memory.load (base + 1) bs (m.write base b)

/-- All 65536 bytes, address 0x0000 first (R44, R88). -/
def Memory.dump (m : Memory) : List Byte := (List.range Config.memSize).map m.read

/-! ### Device data operations (R64, R65) -/

/-- `cursor < size`, an unsigned compare (R64). -/
def Device.inContent (d : Device) : Bool := decide (d.cursor < d.size)

/-- The byte `read_data(d)` returns: the byte at the cursor, or 0 at end-of-device (R64). -/
def Device.dataByte (d : Device) : Byte :=
  match d.inContent with
  | true => d.buffer.getD d.cursor.toNat 0
  | false => 0

/-- The device after `read_data(d)`: the cursor advances only inside the content (R64). -/
def Device.afterRead (d : Device) : Device :=
  match d.inContent with
  | true => { d with cursor := d.cursor + 1 }
  | false => d

/-- The device after `write_data(d, v)`: a write at or past `size` is dropped (R65). -/
def Device.afterWrite (v : Byte) (d : Device) : Device :=
  match d.inContent with
  | true => { d with buffer := d.buffer.set d.cursor.toNat v, cursor := d.cursor + 1 }
  | false => d

/-! ### The seek port (R72, R73) -/

/-- The byte `tell_half(d)` returns: the high or the low byte of the cursor as it stands (R72). -/
def Device.tellByte (m : ToggleMode) (d : Device) : Byte :=
  match d.half m .tell with
  | .high => highByte d.cursor
  | .low => lowByte d.cursor

/-- The device after `tell_half(d)`: only the flag changes (R72). -/
def Device.afterTell (m : ToggleMode) (d : Device) : Device := d.toggle m .tell

/-- The device after `seek_half(d, v)` (R73). -/
def Device.afterSeek (m : ToggleMode) (v : Byte) (d : Device) : Device :=
  match d.half m .seek with
  | .high => { d with cursor := seekHigh v }.toggle m .seek
  | .low => { d with cursor := seekLow d.cursor v }.toggle m .seek

/-! ### State accessors -/

/-- Device `id` of the state. -/
def State.dev (s : State) : DevId → Device
  | .inp => s.inDev
  | .fs => s.fsDev

/-- The state with device `id` replaced. -/
def State.setDev (s : State) (id : DevId) (d : Device) : State :=
  match id with
  | .inp => { s with inDev := d }
  | .fs => { s with fsDev := d }

/-- The state with the memory replaced. -/
def State.setMem (s : State) (m : Memory) : State := { s with mem := m }

/-- `console_append(b)` (R8, R21). -/
def State.appendConsole (s : State) (b : Byte) : State := { s with console := s.console ++ [b] }

/-- `diag_emit(r)` (R8, R22). -/
def State.emit (s : State) (r : DiagRecord) : State := { s with diag := s.diag ++ [r] }

/-- Drive the transaction's result to the core: a byte for a read, nothing for a write (R46). -/
def State.answer (s : State) (r : Option Byte) : State := { s with reply := r }

/-- Move the interface to the core (R83). -/
def State.setBus (s : State) (b : BusPhase) : State := { s with bus := b }

/-- Record the core's own coded state (R83). -/
def State.setCpu (s : State) (k : Nat) : State := { s with cpu := k }

/-- `loop <- l` (R23). -/
def State.setLoop (s : State) (l : LoopState) : State := { s with loop := l }

/-- `host_output_flush(out)` and `terminate(success)` (R87, R89). -/
def State.finish (s : State) (out : List Byte) : State := { s with output := some out, exit := some .success }

/-! ### Transactions shared by the two devices and by the unmapped ports -/

/-- A data-port read of device `id` (R64): the byte goes to the core. -/
def readDataPort (id : DevId) (s : State) : State :=
  (s.setDev id (s.dev id).afterRead).answer (some (s.dev id).dataByte)

/-- A data-port write of device `id` (R65). -/
def writeDataPort (id : DevId) (d : Byte) (s : State) : State :=
  (s.setDev id ((s.dev id).afterWrite d)).answer none

/-- The debug trace of a seek-port access of device `id` carrying `b` (R80), with the phase the device shows before
the access. -/
def traceSeekPort (id : DevId) (dir : Dir) (b : Byte) (s : State) : State :=
  match s.params.debugTrace with
  | true => s.emit (.seekTrace id dir ((s.dev id).half s.params.toggleMode dir) b)
  | false => s

/-- A read of device `id`'s seek port (R72, R80). -/
def tellPort (id : DevId) (s : State) : State :=
  let b := (s.dev id).tellByte s.params.toggleMode
  ((traceSeekPort id .tell b s).setDev id ((s.dev id).afterTell s.params.toggleMode)).answer (some b)

/-- A write of `d` to device `id`'s seek port (R73, R80). -/
def seekPort (id : DevId) (d : Byte) (s : State) : State :=
  ((traceSeekPort id .seek d s).setDev id ((s.dev id).afterSeek s.params.toggleMode d)).answer none

/-- A read of an unmapped port (R60). -/
def unmappedRead (port : Port) (s : State) : State := (s.emit (.unmappedRead port)).answer (some 0)

/-- A write to an unmapped port (R61). -/
def unmappedWrite (port : Port) (d : Byte) (s : State) : State := (s.emit (.unmappedWrite port d)).answer none

end Machine
end Sys2Proof
end

