-- ==== Sys2Proof/Machine/DataPort.lean ====
section
/-! DEFINITION. The data ports (spec/42_data_port.md R66–R69). -/

namespace Sys2Proof
namespace Machine

/-- IN_STDIO (R66): `return read_data(IN)`. -/
def execInStdio (s : State) : Host.Outcome State Fault Refusal := .next (readDataPort .inp s)

/-- OUT_STDIO (R67): `console_append(d)`, in every output mode; IN is not touched. -/
def execOutStdio (d : Byte) (s : State) : Host.Outcome State Fault Refusal :=
  .next ((s.appendConsole d).answer none)

/-- IN_FSDATA (R68): `return read_data(FS)`. -/
def execInFsdata (s : State) : Host.Outcome State Fault Refusal := .next (readDataPort .fs s)

/-- OUT_FSDATA (R69): `write_data(FS, d)`. -/
def execOutFsdata (d : Byte) (s : State) : Host.Outcome State Fault Refusal := .next (writeDataPort .fs d s)

end Machine
end Sys2Proof
end

