-- ==== Sys2Proof/Machine/MemoryOps.lean ====
section
/-! DEFINITION. The memory transactions (spec/40_memory_ops.md R57, R58). -/

namespace Sys2Proof
namespace Machine

/-- MEM_RD (R57): `return MEM[a]`; no state changes. -/
def execMemRd (a : Addr) (s : State) : Host.Outcome State Fault Refusal :=
  .next (s.answer (some (s.mem.read a.toNat)))

/-- MEM_WR (R58): `MEM[a] <- d`. -/
def execMemWr (a : Addr) (d : Byte) (s : State) : Host.Outcome State Fault Refusal :=
  .next ((s.setMem (s.mem.write a.toNat d)).answer none)

end Machine
end Sys2Proof
end

