-- ==== Sys2Proof/Machine/SeekTell.lean ====
section
/-! DEFINITION. The seek/tell ports (spec/43_seek_tell.md R76–R79), in both toggle modes. -/

namespace Sys2Proof
namespace Machine

/-- IN_INSEEK (R76): one half of IN's cursor. -/
def execInInseek (s : State) : Host.Outcome State Fault Refusal := .next (tellPort .inp s)

/-- OUT_INSEEK (R77): one half of a new IN cursor. -/
def execOutInseek (d : Byte) (s : State) : Host.Outcome State Fault Refusal := .next (seekPort .inp d s)

/-- IN_FSSEEK (R78): one half of FS's cursor. -/
def execInFsseek (s : State) : Host.Outcome State Fault Refusal := .next (tellPort .fs s)

/-- OUT_FSSEEK (R79): one half of a new FS cursor. -/
def execOutFsseek (d : Byte) (s : State) : Host.Outcome State Fault Refusal := .next (seekPort .fs d s)

end Machine
end Sys2Proof
end

