-- ==== Sys2Proof/Machine/Unmapped.lean ====
section
/-! DEFINITION. The unmapped ports (spec/41_port_dispatch.md R60, R61). -/

namespace Sys2Proof
namespace Machine

/-- IN_UNMAPPED (R60): a record, and 0 to the core. -/
def execInUnmapped (port : Port) (s : State) : Host.Outcome State Fault Refusal := .next (unmappedRead port s)

/-- OUT_UNMAPPED (R61): a record, nothing else. -/
def execOutUnmapped (port : Port) (d : Byte) (s : State) : Host.Outcome State Fault Refusal :=
  .next (unmappedWrite port d s)

end Machine
end Sys2Proof
end

