-- ==== Sys2Proof/Machine/Dispatch.lean ====
section
/-! DEFINITION. The meaning of each decoded transaction, one arm per constructor. -/

namespace Sys2Proof
namespace Machine

def exec (i : Instr) (s : State) : Host.Outcome State Fault Refusal :=
  match i with
  | .memRd a => Sys2Proof.Machine.execMemRd a s
  | .memWr a d => Sys2Proof.Machine.execMemWr a d s
  | .inStdio => Sys2Proof.Machine.execInStdio s
  | .inInseek => Sys2Proof.Machine.execInInseek s
  | .inFsdata => Sys2Proof.Machine.execInFsdata s
  | .inFsseek => Sys2Proof.Machine.execInFsseek s
  | .inUnmapped port => Sys2Proof.Machine.execInUnmapped port s
  | .outStdio d => Sys2Proof.Machine.execOutStdio d s
  | .outInseek d => Sys2Proof.Machine.execOutInseek d s
  | .outFsdata d => Sys2Proof.Machine.execOutFsdata d s
  | .outFsseek d => Sys2Proof.Machine.execOutFsseek d s
  | .outUnmapped port d => Sys2Proof.Machine.execOutUnmapped port d s

end Machine
end Sys2Proof
end

