-- ==== Sys2Proof/Machine/Controller.lean ====
section
/-! DEFINITION. The CPU contract and the run-to-halt controller (spec/44_execution_loop.md R83–R90), for any core. One
step is one event: the controller's `halted` test, one move of the core, or one transaction (R118; log 2). -/

namespace Sys2Proof
namespace Machine

/-- `halt_output()` (R88). -/
def haltOutput (s : State) : List Byte :=
  match s.params.outputMode with
  | .console => s.console
  | .memDump => s.mem.dump

/-- The debug summary at halt (R87): the core's two registers, opaque values (log 18). -/
def haltSummary (c : CpuCore) (s : State) : State :=
  match s.params.debugTrace with
  | true => s.emit (.haltSummary (c.acc s.cpu) (c.pair s.cpu))
  | false => s

/-- The Running→Halted transition and `halt_actions()` in their order (R85, R87): one step, log 12. -/
def haltActions (c : CpuCore) (s : State) : State :=
  let s' := haltSummary c (s.setLoop .halted)
  s'.finish (haltOutput s')

/-- The start of `CPU.step()` (R85): no data byte stands from an earlier step. -/
def beginCpuStep (s : State) : State := (s.answer none).setBus .inStep

/-- One move of the core inside its step (R83): it presents a word, or its step returns. -/
def coreMove (c : CpuCore) (s : State) : State :=
  match c.move s.cpu s.reply with
  | .present w k => (s.setCpu k).setBus (.presenting w)
  | .finish k => (s.setCpu k).setBus .between

/-- The block's answer to the presented word (R51, R83): decode it and apply it; the core moves next. -/
def applyWord (w : TxWord) (s : State) : Host.Outcome State Fault Refusal :=
  exec (decode w) (s.setBus .inStep)

/-- One step of the run under the core `c` (R83, R85, R86). -/
def stepWith (c : CpuCore) (s : State) : Host.Outcome State Fault Refusal :=
  match s.loop with
  | .halted => .fault .runEnded
  | .running =>
    match s.bus with
    | .between =>
      match c.halted s.cpu with
      | true => .next (haltActions c s)
      | false => .next (beginCpuStep s)
    | .inStep => .next (coreMove c s)
    | .presenting w => applyWord w s

/-- `n` steps under the core `c`. Fuel is no end of a run (R90). -/
def runWith (c : CpuCore) : Nat → State → Host.Outcome State Fault Refusal
  | 0, s => .next s
  | n + 1, s =>
    match stepWith c s with
    | .next t => runWith c n t
    | .fault r => .fault r
    | .refused r => .refused r

/-- What one step does, as the rules name it. -/
inductive Event where
  /-- The controller enters Halted and flushes (R85, R87). -/
  | halt
  /-- The controller calls `CPU.step()` (R85). -/
  | cpuStep
  /-- The core moves: it presents a word or returns (R83). -/
  | coreMove
  /-- The block applies a transaction (R83). -/
  | transaction (i : Instr)
  deriving DecidableEq, Repr

/-- The event of the next step; none in Halted (R86). -/
def eventOf (c : CpuCore) (s : State) : Option Event :=
  match s.loop with
  | .halted => none
  | .running =>
    match s.bus with
    | .between =>
      match c.halted s.cpu with
      | true => some .halt
      | false => some .cpuStep
    | .inStep => some .coreMove
    | .presenting w => some (.transaction (decode w))

/-- The events of the first `n` steps, in order. -/
def eventsWith (c : CpuCore) : Nat → State → List Event
  | 0, _ => []
  | n + 1, s =>
    (eventOf c s).toList ++
      match stepWith c s with
      | .next t => eventsWith c n t
      | .fault _ => []
      | .refused _ => []

/-- The transactions among the events, in the core's issue order (R39). -/
def transactionsOf : List Event → List Instr
  | [] => []
  | .transaction i :: es => i :: transactionsOf es
  | .halt :: es => transactionsOf es
  | .cpuStep :: es => transactionsOf es
  | .coreMove :: es => transactionsOf es

/-- What the host may have received of the process output (R87, R90, spec D6): after the flush exactly its bytes; before
it any prefix of the console log in Console mode, and nothing in MemDump mode (log 20). -/
def State.hostMayHold (s : State) (bs : List Byte) : Bool :=
  match s.output with
  | some out => decide (bs = out)
  | none =>
    match s.params.outputMode with
    | .console => bs.isPrefixOf s.console
    | .memDump => bs.isEmpty

/-- The observation of a halted run (R89): the output bytes and the diagnostic records. -/
def State.observation (s : State) : Option (List Byte × List DiagRecord) :=
  match s.output with
  | some out => some (out, s.diag)
  | none => none

end Machine
end Sys2Proof
end

