-- ==== Sys2Proof/Machine/Step.lean ====
section
/-! DEFINITION. The step of `Sys2Proof.core`: the step under the opaque core (spec/44_execution_loop.md R83), and how a
given instruction is put where the next step takes it. -/

namespace Sys2Proof
namespace Machine

/-- One step of the run under the opaque core. -/
def step (s : State) : Host.Outcome State Fault Refusal := stepWith Config.core s

/-- The state in which the core presents the table word as the next transaction of a running run (log 3): the very next
step decodes and applies it. Nothing else changes. -/
def State.withFetchWord (s : State) (nbits w : Nat) : State :=
  (s.setLoop .running).setBus (.presenting (BitVec.ofNat Config.wordW (tableWord nbits w)))

end Machine
end Sys2Proof
end

