-- ==== Sys2Proof/Machine/Bootstrap.lean ====
section
/-! DEFINITION. The reset sequence (spec/70_reset_and_hazards.md R103–R110) for every configuration. It runs once, before
the first step (R103); `State.reset` is its result for `Config.defaultRun`. -/

namespace Sys2Proof
namespace Machine

/-- The first image that breaks a precondition of R110, if any. -/
def misfit (cfg : RunConfig) : Option Image :=
  if Config.memSize < cfg.bootImg.length then some .boot
  else if Config.memSize - Config.progBase < cfg.progImg.length then some .prog
  else if Config.fsCap < cfg.fsImg.length then some .fs
  else none

/-- R104 and R105: `MEM_INIT`, then the boot image, then the program image, which wins where they overlap. -/
def bootMemory (cfg : RunConfig) : Memory :=
  Memory.load Config.progBase cfg.progImg
    (Memory.load Config.bootBase cfg.bootImg
      (Memory.fill (fun a => cfg.memInit (BitVec.ofNat Config.memAddrW a)) Config.memSize []))

/-- Load a device (R106, R107): its content, its size and cursor 0. -/
def Device.loadContent (bytes : List Byte) (d : Device) : Device :=
  { d with buffer := bytes, size := BitVec.ofNat Config.cursorW bytes.length, cursor := 0 }

/-- Reset steps 1 and 2 (R104, R105). -/
def bootMem (cfg : RunConfig) (s : State) : State := s.setMem (bootMemory cfg)

/-- Reset step 3 (R106). -/
def bootFs (cfg : RunConfig) (s : State) : State := s.setDev .fs (s.fsDev.loadContent cfg.fsImg)

/-- Reset step 4 (R107): the whole stream is drained, at most `IN_CAP` bytes are kept, the rest is dropped silently. -/
def bootInput (cfg : RunConfig) (s : State) : State :=
  s.setDev .inp (s.inDev.loadContent (cfg.input.take Config.inCap))

/-- Reset step 5 (R108). -/
def bootFlags (s : State) : State :=
  (s.setDev .inp s.inDev.clearFlags).setDev .fs s.fsDev.clearFlags

/-- Reset step 6 (R109): empty logs, `CPU.reset()`, binding, Running; nothing flushed, nothing returned to the core. -/
def bootStart (cfg : RunConfig) (s : State) : State :=
  { s with
    console := []
    diag := []
    cpu := Config.coreResetCode
    bus := .between
    loop := .running
    params := cfg.params
    reply := none
    output := none
    exit := none }

/-- The reset sequence from whatever stood before: refused if an image does not fit (R110), else steps 1 to 6 in
order. -/
def bootstrapFrom (s : State) (cfg : RunConfig) : Host.Outcome State Fault Refusal :=
  match misfit cfg with
  | some image => .refused (.imageDoesNotFit image)
  | none => .next (bootStart cfg (bootFlags (bootInput cfg (bootFs cfg (bootMem cfg s)))))

/-- The bootstrap of a run (R103). What stood before does not matter: every field is written. -/
def bootstrap (cfg : RunConfig) : Host.Outcome State Fault Refusal := bootstrapFrom State.reset cfg

end Machine
end Sys2Proof
end

