-- ==== Sys2Proof/Machine/Containment.lean ====
section
/-! DEFINITION. The contained fault categories (spec/60_exceptions.md R92–R94): labels for causes. No state holds them and
no step reads them; every transaction they name completes. -/

namespace Sys2Proof
namespace Machine

/-- The categories of R92. "The labels name causes; they are not values any register holds." -/
inductive FaultCategory where
  /-- `E_PORT`: out-of-range port access. -/
  | port
  /-- `E_OVERRUN_WR`: a filesystem write at or past `size`. -/
  | overrunWrite
  /-- `E_OVERRUN_IN`: external input beyond IN's capacity. -/
  | overrunInput
  deriving DecidableEq, Repr

/-- The category a transaction meets in state `s`: at most one (R97). -/
def faultCategory (i : Instr) (s : State) : Option FaultCategory :=
  match i with
  | .memRd _ => none
  | .memWr _ _ => none
  | .inStdio => none
  | .inInseek => none
  | .inFsdata => none
  | .inFsseek => none
  | .inUnmapped _ => some .port
  | .outStdio _ => none
  | .outInseek _ => none
  | .outFsdata _ =>
    match s.fsDev.inContent with
    | true => none
    | false => some .overrunWrite
  | .outFsseek _ => none
  | .outUnmapped _ _ => some .port

/-- The category the bootstrap meets (R92, R107). -/
def bootCategory (cfg : RunConfig) : Option FaultCategory :=
  if Config.inCap < cfg.input.length then some .overrunInput else none

end Machine
end Sys2Proof
end

