-- ==== Sys2Proof/Machine/PortBus.lean ====
section
/-! DEFINITION. The port dispatcher as spec/41_port_dispatch.md R59 writes it: on the presented port value, masked here.
`exec` reaches the same operations through the decoder; an obligation states that the two agree. -/

namespace Sys2Proof
namespace Machine

/-- `PortRead(A)` of R59 on the presented value `p`: the state after it, with the returned byte in `reply`. -/
def portRead (p : PresentedPort) (s : State) : State :=
  if maskPort p = Config.stdioPort then readDataPort .inp s
  else if maskPort p = Config.inSeekPort then tellPort .inp s
  else if maskPort p = Config.fsDataPort then readDataPort .fs s
  else if maskPort p = Config.fsSeekPort then tellPort .fs s
  else unmappedRead (maskPort p) s

/-- `PortWrite(A, D)` of R59 on the presented value `p`. -/
def portWrite (p : PresentedPort) (d : Byte) (s : State) : State :=
  if maskPort p = Config.stdioPort then (s.appendConsole d).answer none
  else if maskPort p = Config.inSeekPort then seekPort .inp d s
  else if maskPort p = Config.fsDataPort then writeDataPort .fs d s
  else if maskPort p = Config.fsSeekPort then seekPort .fs d s
  else unmappedWrite (maskPort p) d s

end Machine
end Sys2Proof
end

