-- ==== Sys2Proof/Machine/Sequence.lean ====
section
/-! DEFINITION. Sequences of transactions and the pseudo-operations TELL and SEEK (spec/30_encoding.md R55). A
pseudo-operation is not atomic: it is a list of two transactions. -/

namespace Sys2Proof
namespace Machine

/-- The read of device `id`'s seek port (R52). -/
def tellOp : DevId → Instr
  | .inp => .inInseek
  | .fs => .inFsseek

/-- The write of `d` to device `id`'s seek port (R52). -/
def seekOp : DevId → Byte → Instr
  | .inp, d => .outInseek d
  | .fs, d => .outFsseek d

/-- The data read of device `id` (R52, R82). -/
def dataReadOp : DevId → Instr
  | .inp => .inStdio
  | .fs => .inFsdata

/-- `TELL d` (R55). -/
def tellSeq (id : DevId) : List Instr := [tellOp id, tellOp id]

/-- `SEEK d, k` (R55): the high byte first. -/
def seekSeq (id : DevId) (k : Word16) : List Instr := [seekOp id (highByte k), seekOp id (lowByte k)]

/-- Apply the transactions in order, each on the state the one before left (R39). -/
def execSeq : List Instr → State → Host.Outcome State Fault Refusal
  | [], s => .next s
  | i :: is, s =>
    match exec i s with
    | .next t => execSeq is t
    | .fault r => .fault r
    | .refused r => .refused r

/-- The bytes the reads of the sequence return, in order (R46). -/
def repliesOf : List Instr → State → List Byte
  | [], _ => []
  | i :: is, s =>
    match exec i s with
    | .next t => t.reply.toList ++ repliesOf is t
    | .fault _ => []
    | .refused _ => []

end Machine
end Sys2Proof
end

