-- ==== Sys2Proof/Safety.lean ====
section
/-! DEFINITION. What a good state is, and the terms claims use: the invariant of the block, the parts of a state a
transaction may leave alone, and the assumption on a core that its step returns. -/

namespace Sys2Proof
namespace Machine

/-- A device holds exactly `size` bytes, at most its capacity (R12–R15). -/
def Device.wf (cap : Nat) (d : Device) : Bool :=
  decide (d.buffer.length = d.size.toNat) && decide (d.size.toNat ≤ cap)

/-- The flags of the mode that is not in force stay false (R18, R75; log 11). -/
def Device.flagsWf (m : ToggleMode) (d : Device) : Bool :=
  match m with
  | .shared => !d.pendingRd && !d.pendingWr
  | .independent => !d.pending

/-- A record can stand in the log of this state (R62): a masked unmapped port, a trace or a summary only under
`DEBUG_TRACE`, a summary only once Halted. -/
def DiagRecord.wf (debug : Bool) (loop : LoopState) : DiagRecord → Bool
  | .unmappedRead port => decide (Config.firstUnmappedPort ≤ port)
  | .unmappedWrite port _ => decide (Config.firstUnmappedPort ≤ port)
  | .seekTrace _ _ _ _ => debug
  | .haltSummary _ _ => debug && decide (loop = .halted)

/-- The process output and the end of the run stand exactly when the controller is Halted, with the bytes of R88
(R86–R89). -/
def State.haltWf (s : State) : Bool :=
  match s.loop with
  | .running => decide (s.output = none) && decide (s.exit = none)
  | .halted =>
    decide (s.output = some (haltOutput s)) && decide (s.exit = some .success) && decide (s.bus = .between)

/-- The invariant of the block. -/
def State.inv (s : State) : Bool :=
  s.mem.wf && s.inDev.wf DevId.inp.cap && s.fsDev.wf DevId.fs.cap &&
    s.inDev.flagsWf s.params.toggleMode && s.fsDev.flagsWf s.params.toggleMode &&
    s.diag.all (DiagRecord.wf s.params.debugTrace s.loop) && s.haltWf

/-- Every byte of memory reads alike. -/
def sameMemory (s t : State) : Prop := ∀ a : Addr, t.mem.read a.toNat = s.mem.read a.toNat

/-- Neither device differs in any field. -/
def sameDevices (s t : State) : Prop := t.inDev = s.inDev ∧ t.fsDev = s.fsDev

/-- Neither log differs. -/
def sameLogs (s t : State) : Prop := t.console = s.console ∧ t.diag = s.diag

/-- The controller, the parameters, the core's own state, its interface and the process outputs do not differ. -/
def sameControl (s t : State) : Prop :=
  t.loop = s.loop ∧ t.params = s.params ∧ t.cpu = s.cpu ∧ t.bus = s.bus ∧ t.output = s.output ∧ t.exit = s.exit

/-- The content and the size of a device do not differ; its cursor and flags may. -/
def Device.sameContent (d e : Device) : Prop := e.buffer = d.buffer ∧ e.size = d.size

/-- The three flags of a device do not differ. -/
def Device.sameFlags (d e : Device) : Prop :=
  e.pending = d.pending ∧ e.pendingRd = d.pendingRd ∧ e.pendingWr = d.pendingWr

/-- The state differs at most in the byte returned to the core. -/
def sameButReply (s t : State) : Prop := t = { s with reply := t.reply }

/-- Is the transaction a read of device `id`'s seek port? -/
def isTellOf (id : DevId) (i : Instr) : Bool := decide (i = tellOp id)

/-- Is the transaction a write to device `id`'s seek port? -/
def isSeekOf (id : DevId) (i : Instr) : Bool :=
  match id, i with
  | .inp, .outInseek _ => true
  | .fs, .outFsseek _ => true
  | _, _ => false

/-- Is the number of the list's transactions with property `p` odd (R119)? -/
def oddCount (p : Instr → Bool) (is : List Instr) : Bool := decide ((is.filter p).length % 2 = 1)

/-- The byte the transaction stores at memory address `a`, if it does. -/
def storesAt (a : Addr) (i : Instr) : Option Byte :=
  match i with
  | .memWr b d => if b = a then some d else none
  | _ => none

/-- The byte the latest store to `a` among the transactions wrote (R39). -/
def latestStore (a : Addr) (is : List Instr) : Option Byte := (is.filterMap (storesAt a)).getLast?

/-- The byte the transaction appends to the console, if it does (R21, R67). -/
def consoleByte (i : Instr) : Option Byte :=
  match i with
  | .outStdio d => some d
  | _ => none

/-- The transaction may change device `id`: it is one of that device's ports (R20). -/
def reachesDevice (id : DevId) (i : Instr) : Bool :=
  match id, i with
  | .inp, .inStdio => true
  | .inp, .inInseek => true
  | .inp, .outInseek _ => true
  | .fs, .inFsdata => true
  | .fs, .outFsdata _ => true
  | .fs, .inFsseek => true
  | .fs, .outFsseek _ => true
  | _, _ => false

/-- The transactions of the first `n` steps under the core `c`, in issue order. -/
def issued (c : CpuCore) (n : Nat) (s : State) : List Instr := transactionsOf (eventsWith c n s)

/-- The transactions of the first `n` steps under the core `c`, each with the state it meets, in issue order. -/
def applied (c : CpuCore) : Nat → State → List (Instr × State)
  | 0, _ => []
  | n + 1, s =>
    (transactionsOf (eventOf c s).toList).map (fun i => (i, s)) ++
      match stepWith c s with
      | .next t => applied c n t
      | .fault _ => []
      | .refused _ => []

/-- The byte the transaction stores at index `j` of the filesystem in the state it meets, if it does (R65, R69). -/
def storesInFs (j : Nat) (p : Instr × State) : Option Byte :=
  match p.1 with
  | .outFsdata d => if p.2.fsDev.cursor.toNat = j ∧ j < p.2.fsDev.size.toNat then some d else none
  | _ => none

/-- The byte the latest store to index `j` of the filesystem among the transactions wrote (R39, R69). -/
def latestFsStore (j : Nat) (ps : List (Instr × State)) : Option Byte := (ps.filterMap (storesInFs j)).getLast?

/-- How often the controller calls `CPU.step()` in the first `k` steps (R85). -/
def cpuSteps (c : CpuCore) (k : Nat) (s : State) : Nat := (eventsWith c k s).count .cpuStep

/-- Under a core whose code counts its completed CPU steps by `age` and halts at `n`: at most `n` between two CPU steps,
fewer inside one, exactly `n` in Halted (R85). -/
def State.ageWf (age : Nat → Nat) (n : Nat) (s : State) : Bool :=
  match s.loop with
  | .halted => decide (age s.cpu = n)
  | .running =>
    match s.bus with
    | .between => decide (age s.cpu ≤ n)
    | .inStep => decide (age s.cpu < n)
    | .presenting _ => decide (age s.cpu < n)

/-- A state without what the debug build adds: the diagnostic log and the parameter `DEBUG_TRACE`. -/
def State.eraseDebug (s : State) : State :=
  { s with diag := [], params := { s.params with debugTrace := false } }

end Machine

open Machine in
/-- In the run of the core `c` from `s`, `halted` is tested false before each of the first `n` CPU steps and true after
them (Scenario D, R85). It speaks of the tests of this run alone: not of codes the run does not reach, nor of a core's
codes being all different. -/
def CpuCore.haltsAfter (c : CpuCore) (s : State) (n : Nat) : Prop :=
  ∀ k t, runWith c k s = .next t → t.loop = .running → t.bus = .between →
    c.halted t.cpu = decide (cpuSteps c k s = n)

open Machine in
/-- The assumption that in the run from `s` every `step()` issues finitely many transactions and returns (R83, spec D25):
from every state of the run, the place between two CPU steps is reached. -/
def CpuCore.stepsReturn (c : CpuCore) (s : State) : Prop :=
  ∀ k t, runWith c k s = .next t → t.loop = .running → ∃ m u, runWith c m t = .next u ∧ u.bus = .between

/-- The code of the core, where it is not halted, carries the number `age` of its completed CPU steps: kept while a step
runs, one more when it returns; and `halted` becomes true at `n`. Halted codes, which no controller steps (R86), may
move as they like. -/
def CpuCore.counts (c : CpuCore) (age : Nat → Nat) (n : Nat) : Prop :=
  (∀ k r w k', c.halted k = false → c.move k r = .present w k' → age k' = age k) ∧
    (∀ k r k', c.halted k = false → c.move k r = .finish k' → age k' = age k + 1) ∧
    ∀ k, c.halted k = decide (n ≤ age k)

end Sys2Proof
end

