-- ==== Sys2Proof/WellFormed.lean ====
section
/-! DEFINITION. Which terms of `Instr` are operations of the block: an unmapped access names a port in 4..255
(spec/41_port_dispatch.md R60, R61; spec/30_encoding.md R52). Every other operand is legal at every value. -/

namespace Sys2Proof
namespace Instr

/-- The operand check of each operation. -/
def wf : Instr → Bool
  | memRd _ => true
  | memWr _ _ => true
  | inStdio => true
  | inInseek => true
  | inFsdata => true
  | inFsseek => true
  | inUnmapped port => decide (Config.firstUnmappedPort ≤ port)
  | outStdio _ => true
  | outInseek _ => true
  | outFsdata _ => true
  | outFsseek _ => true
  | outUnmapped port _ => decide (Config.firstUnmappedPort ≤ port)

end Instr
end Sys2Proof
end

