-- ==== Sys2Proof/Certificates/Slice0/Obligations.lean ====
section
/-! DEFINITION. The statements for the provers. "R<n>" is a rule of spec/; "spec D<n>" a decision of
spec/92_eei_decisions.md; "log <n>" an entry of notes/assumptions/. A statement over `stepWith c` or `runWith c` holds
for every core `c` (spec/44_execution_loop.md R83). -/

open Sys2Proof Sys2Proof.Machine

/-! ### Encoding (30_encoding.md) -/

/-- Every well-formed operation decodes back from its word (30_encoding.md sections 1 to 3, the spec's own word
layout D1). -/
def Obligations.DecodeOfEncodeIsIdentity : Prop :=
  ∀ i : Instr, i.wf = true → decode (encode i) = i

/-- Every word decodes to a well-formed operation, and the word of that operation is the given word with its ignored
bits 0 (30_encoding.md section 2; R51 is marked derived by the spec). -/
def Obligations.EncodeOfDecodeClearsIgnoredBits : Prop :=
  ∀ w : TxWord, (decode w).wf = true ∧
    TxWord.space (encode (decode w)) = TxWord.space w ∧
    TxWord.dir (encode (decode w)) = TxWord.dir w ∧
    (TxWord.space w = false → TxWord.addr (encode (decode w)) = TxWord.addr w) ∧
    (TxWord.space w = true →
      (TxWord.addr (encode (decode w))).toNat = (TxWord.addr w).toNat % 256) ∧
    TxWord.data (encode (decode w)) = if TxWord.dir w then TxWord.data w else 0

/-- Words that differ only in ignored bits decode alike, and the block and every run answer them alike
(30_encoding.md section 2; R49 is marked derived by the spec). -/
def Obligations.IgnoredBitsNeverMatter : Prop :=
  ∀ w v : TxWord, TxWord.space v = TxWord.space w → TxWord.dir v = TxWord.dir w →
    (TxWord.space w = false → TxWord.addr v = TxWord.addr w) →
    (TxWord.space w = true → (TxWord.addr v).toNat % 256 = (TxWord.addr w).toNat % 256) →
    (TxWord.dir w = true → TxWord.data v = TxWord.data w) →
    decode v = decode w ∧
      ∀ (c : CpuCore) (s : State), stepWith c (s.setBus (.presenting v)) = stepWith c (s.setBus (.presenting w))

/-- Of the 22 match/mask rows exactly one covers each word, and its mnemonic is the decoded operation's
(30_encoding.md section 3: "The rows do not overlap, and together they cover every word."). -/
def Obligations.OneTableRowCoversEachWord : Prop :=
  ∀ w : TxWord, (opcodeTable.filter fun r => r.covers w).map (·.mnemonic) = [(decode w).mnemonic]

/-- Words of spec/95_test_vectors.md decode to the operations the vectors name. -/
def Obligations.VectorWordsDecode : Prop :=
  decode 0x0FFFF00 = .memRd 0xFFFF ∧ decode 0x1FFFF5A = .memWr 0xFFFF 0x5A ∧
    decode 0x2010000 = .inStdio ∧ decode 0x2000100 = .inInseek ∧ decode 0x2120200 = .inFsdata ∧
    decode 0x2FF0300 = .inFsseek ∧ decode 0x2010400 = .inUnmapped 0x04 ∧ decode 0x200FF00 = .inUnmapped 0xFF ∧
    decode 0x3000041 = .outStdio 0x41 ∧ decode 0x30001FF = .outInseek 0xFF ∧ decode 0x3120277 = .outFsdata 0x77 ∧
    decode 0x30003AB = .outFsseek 0xAB ∧ decode 0x300FF41 = .outUnmapped 0xFF 0x41

/-- Only a presented port value's low 8 bits matter, at any width of the value (30_encoding.md R47, R50, spec D2). -/
def Obligations.PresentedPortIsMasked : Prop :=
  ∀ (p : Nat) (d : Byte),
    decode (inWord p) = decode (inWord (p % 256)) ∧ decode (outWord p d) = decode (outWord (p % 256) d) ∧
      ∀ q, decode (inWord p) = decode (inWord q) → 4 ≤ p % 256 → q % 256 = p % 256

/-! ### Steps and transactions -/

/-- When the core presents a word of a running run, the step is the decoded operation's meaning, with the core to move
next (44_execution_loop.md R83; the micro-step is the model's, log 2). -/
def Obligations.PresentedWordRuns : Prop :=
  ∀ (c : CpuCore) (s : State) (w : TxWord), s.loop = .running → s.bus = .presenting w →
    stepWith c s = exec (decode w) (s.setBus .inStep) ∧ step s = exec (decode w) (s.setBus .inStep)

/-- A table word that decodes is what the next step runs after `withFetchWord` (the model's own, log 3). -/
def Obligations.FetchWordRuns : Prop :=
  ∀ (s : State) (nbits w : Nat) (i : Instr), decodeTableWord nbits w = some i →
    step (s.withFetchWord nbits w) = exec i ((s.setLoop .running).setBus .inStep)

/-- R63. Every transaction completes, a read with a byte and a write with none, and control returns to the core; a
running run stops at no step. -/
def Obligations.EveryTransactionCompletes : Prop :=
  (∀ (i : Instr) (s : State), ∃ t, exec i s = .next t ∧ t.reply.isSome = !i.isWrite ∧ sameControl s t) ∧
    (∀ (c : CpuCore) (s : State) (w : TxWord), s.loop = .running → s.bus = .presenting w →
      ∃ t, stepWith c s = .next t ∧ t.bus = .inStep ∧ t.loop = .running) ∧
    ∀ (c : CpuCore) (s : State), s.loop = .running → ∃ t, stepWith c s = .next t

/-- No run is refused, and a run stops only after the controller is Halted (R63: "only an explicit halt or natural
process exit ends the run"). -/
def Obligations.OnlyHaltEndsARun : Prop :=
  ∀ (c : CpuCore) (n : Nat) (s : State),
    (∀ r, runWith c n s ≠ .refused r) ∧
      ∀ r, runWith c n s = .fault r → ∃ m t, m < n ∧ runWith c m s = .next t ∧ t.loop = .halted

/-- The parts of the state each transaction may change (the table of 20_memory.md section 2 and of 10_state.md R20):
every other part stays. -/
def Obligations.TransactionsChangeOnlyTheirParts : Prop :=
  ∀ (i : Instr) (s : State), ∃ t, exec i s = .next t ∧ sameControl s t ∧
    ((∀ a d, i ≠ .memWr a d) → t.mem = s.mem) ∧
    (∀ id, reachesDevice id i = false → t.dev id = s.dev id) ∧
    ((∀ d, i ≠ .outStdio d) → t.console = s.console) ∧
    ((∀ p, i ≠ .inUnmapped p) → (∀ p d, i ≠ .outUnmapped p d) →
      (s.params.debugTrace = true → ∀ id, isTellOf id i = false ∧ isSeekOf id i = false) → t.diag = s.diag)

/-- R34. A memory transaction reaches no device and no log, a port transaction reaches no byte of memory. -/
def Obligations.SpacesAreDisjoint : Prop :=
  ∀ (i : Instr) (s : State), ∃ t, exec i s = .next t ∧
    (i.isPort = false → sameDevices s t ∧ sameLogs s t) ∧ (i.isPort = true → t.mem = s.mem)

/-- Which repeated transactions change nothing more (the third column of the table of 20_memory.md section 2): a memory
read, a memory write, a data read or a filesystem write at end-of-device, and an unmapped access but for its record. -/
def Obligations.RepeatsThatChangeNothing : Prop :=
  (∀ (a : Addr) (s t : State), exec (.memRd a) s = .next t → exec (.memRd a) t = .next t) ∧
    (∀ (a : Addr) (d : Byte) (s t : State), s.mem.wf = true → exec (.memWr a d) s = .next t →
      exec (.memWr a d) t = .next t) ∧
    (∀ (id : DevId) (s t : State), (s.dev id).size.toNat ≤ (s.dev id).cursor.toNat →
      exec (dataReadOp id) s = .next t → exec (dataReadOp id) t = .next t) ∧
    (∀ (d : Byte) (s t : State), s.fsDev.size.toNat ≤ s.fsDev.cursor.toNat → exec (.outFsdata d) s = .next t →
      exec (.outFsdata d) t = .next t) ∧
    (∀ (p : Port) (s t : State), exec (.inUnmapped p) s = .next t →
      exec (.inUnmapped p) t = .next { t with diag := t.diag ++ [.unmappedRead p] }) ∧
    ∀ (p : Port) (d : Byte) (s t : State), exec (.outUnmapped p d) s = .next t →
      exec (.outUnmapped p d) t = .next { t with diag := t.diag ++ [.unmappedWrite p d] }

/-! ### Memory (40_memory_ops.md, 20_memory.md) -/

/-- R57. MEM_RD returns `MEM[a]` and changes nothing else; after the bootstrap a byte no image covers reads as
`MEM_INIT[a]` until a store to it is issued, under every core. -/
def Obligations.MemReadReturnsTheByte : Prop :=
  (∀ (a : Addr) (s : State), exec (.memRd a) s = .next { s with reply := some (s.mem.read a.toNat) }) ∧
    ∀ (c : CpuCore) (n : Nat) (cfg : RunConfig) (s t : State) (a : Addr), bootstrap cfg = .next s →
      cfg.bootImg.length ≤ a.toNat → (a.toNat < 0x4800 ∨ 0x4800 + cfg.progImg.length ≤ a.toNat) →
      runWith c n s = .next t → latestStore a (issued c n s) = none →
      exec (.memRd a) t = .next { t with reply := some (cfg.memInit a) }

/-- R58. MEM_WR stores the byte at every address, leaves every other byte and every other part of the state alone, and
changes nothing when the byte was held. -/
def Obligations.MemWriteStoresOneByte : Prop :=
  ∀ (a : Addr) (d : Byte) (s : State), s.mem.wf = true →
    ∃ t, exec (.memWr a d) s = .next t ∧ t.mem.read a.toNat = d ∧
      (∀ b : Addr, b ≠ a → t.mem.read b.toNat = s.mem.read b.toNat) ∧
      (s.mem.read a.toNat = d → t.mem = s.mem) ∧ t.reply = none ∧
      sameDevices s t ∧ sameLogs s t ∧ sameControl s t

/-- A memory with the canonical form is fixed by what it reads as (the model's list form, log 5). -/
def Obligations.CanonicalMemoriesAreEqualWhenTheyReadAlike : Prop :=
  ∀ m m' : Memory, m.wf = true → m'.wf = true → (∀ a : Addr, m.read a.toNat = m'.read a.toNat) → m = m'

/-- Memory is sequentially consistent in the core's issue order, over every run of every core (20_memory.md section 3):
a byte reads as the latest store to it among the transactions issued, or as at the start of the run, and that is what a
MEM_RD then returns. -/
def Obligations.MemoryIsSequentiallyConsistent : Prop :=
  ∀ (c : CpuCore) (n : Nat) (s t : State), s.mem.wf = true → runWith c n s = .next t →
    ∀ a : Addr, exec (.memRd a) t =
      .next { t with reply := some ((latestStore a (issued c n s)).getD (s.mem.read a.toNat)) }

/-! ### Port dispatch (41_port_dispatch.md) -/

/-- R59. The decoder followed by the meaning is the dispatcher on the presented value. -/
def Obligations.DispatcherAgreesWithDecoder : Prop :=
  ∀ (a : PresentedPort) (d : Byte) (s : State),
    exec (decode (TxWord.assemble true false a d)) s = .next (portRead a s) ∧
      exec (decode (TxWord.assemble true true a d)) s = .next (portWrite a d s)

/-- R60. A read of a presented value whose low byte is 4 or more decodes to IN_UNMAPPED of that byte, returns 0 and adds
one record in every mode; one whose low byte is 0 to 3 does not. -/
def Obligations.UnmappedReadReturnsZero : Prop :=
  (∀ (a : PresentedPort) (d : Byte), 4 ≤ a.toNat % 256 →
      decode (TxWord.assemble true false a d) = .inUnmapped (BitVec.ofNat 8 a.toNat)) ∧
    (∀ (a : PresentedPort) (d : Byte), a.toNat % 256 < 4 → ∀ p, decode (TxWord.assemble true false a d) ≠ .inUnmapped p) ∧
    ∀ (p : Port) (s : State),
      exec (.inUnmapped p) s = .next { s with diag := s.diag ++ [.unmappedRead p], reply := some 0 }

/-- R61. A write to a presented value whose low byte is 4 or more decodes to OUT_UNMAPPED of that byte and only adds one
record, in every mode; one whose low byte is 0 to 3 does not. -/
def Obligations.UnmappedWriteOnlyRecords : Prop :=
  (∀ (a : PresentedPort) (d : Byte), 4 ≤ a.toNat % 256 →
      decode (TxWord.assemble true true a d) = .outUnmapped (BitVec.ofNat 8 a.toNat) d) ∧
    (∀ (a : PresentedPort) (d : Byte), a.toNat % 256 < 4 → ∀ p v, decode (TxWord.assemble true true a d) ≠ .outUnmapped p v) ∧
    ∀ (p : Port) (d : Byte) (s : State),
      exec (.outUnmapped p d) s = .next { s with diag := s.diag ++ [.unmappedWrite p d], reply := none }

/-! ### Data ports (42_data_port.md) -/

/-- R64, R66, R68. IN_STDIO and IN_FSDATA: inside the content the byte at the cursor is returned and the cursor
advances by 1 without wrapping; at end-of-device 0 is returned and the device stays; nothing else changes. -/
def Obligations.DataReadsFollowTheCursor : Prop :=
  (∀ s : State, s.inDev.wf 32768 = true → ∃ t, exec .inStdio s = .next t ∧
      (s.inDev.cursor.toNat < s.inDev.size.toNat →
        t.reply = s.inDev.buffer[s.inDev.cursor.toNat]? ∧ t.reply.isSome = true ∧
          t.inDev.cursor.toNat = s.inDev.cursor.toNat + 1) ∧
      (s.inDev.size.toNat ≤ s.inDev.cursor.toNat → t.reply = some 0 ∧ t.inDev.cursor = s.inDev.cursor) ∧
      s.inDev.sameContent t.inDev ∧ s.inDev.sameFlags t.inDev ∧ t.fsDev = s.fsDev ∧ t.mem = s.mem ∧
      sameLogs s t ∧ sameControl s t) ∧
    ∀ s : State, s.fsDev.wf 65535 = true → ∃ t, exec .inFsdata s = .next t ∧
      (s.fsDev.cursor.toNat < s.fsDev.size.toNat →
        t.reply = s.fsDev.buffer[s.fsDev.cursor.toNat]? ∧ t.reply.isSome = true ∧
          t.fsDev.cursor.toNat = s.fsDev.cursor.toNat + 1) ∧
      (s.fsDev.size.toNat ≤ s.fsDev.cursor.toNat → t.reply = some 0 ∧ t.fsDev.cursor = s.fsDev.cursor) ∧
      s.fsDev.sameContent t.fsDev ∧ s.fsDev.sameFlags t.fsDev ∧ t.inDev = s.inDev ∧ t.mem = s.mem ∧
      sameLogs s t ∧ sameControl s t

/-- OUT_STDIO appends its byte to the console and changes nothing else: IN is not touched (42_data_port.md section 2;
that it appends in every output mode is spec D5). -/
def Obligations.StdioWriteAppendsToConsole : Prop :=
  ∀ (d : Byte) (s : State), exec (.outStdio d) s = .next { s with console := s.console ++ [d], reply := none }

/-- R69. OUT_FSDATA: inside the content the byte at the cursor is overwritten and the cursor advances by 1; at or past
`size` nothing changes and no record is made; `size`, the flags and every other part stay. -/
def Obligations.FsWriteOverwritesAtCursor : Prop :=
  ∀ (d : Byte) (s : State), s.fsDev.wf 65535 = true → ∃ t, exec (.outFsdata d) s = .next t ∧
    (s.fsDev.cursor.toNat < s.fsDev.size.toNat →
      t.fsDev.buffer[s.fsDev.cursor.toNat]? = some d ∧
        (∀ j, j ≠ s.fsDev.cursor.toNat → t.fsDev.buffer[j]? = s.fsDev.buffer[j]?) ∧
        t.fsDev.cursor.toNat = s.fsDev.cursor.toNat + 1) ∧
    (s.fsDev.size.toNat ≤ s.fsDev.cursor.toNat → t.fsDev = s.fsDev) ∧
    t.fsDev.size = s.fsDev.size ∧ s.fsDev.sameFlags t.fsDev ∧ t.reply = none ∧ t.inDev = s.inDev ∧ t.mem = s.mem ∧
    sameLogs s t ∧ sameControl s t

/-- A byte written at `k` inside the filesystem is what a later seek to `k` and data read return (42_data_port.md
section 3: "A later seek and read sees it."), in both toggle modes. -/
def Obligations.FsWriteIsReadBack : Prop :=
  ∀ (k : Word16) (v : Byte) (s : State), s.fsDev.wf 65535 = true → k.toNat < s.fsDev.size.toNat →
    s.fsDev.flag s.params.toggleMode .seek = false →
    ∃ t, execSeq (seekSeq .fs k ++ [.outFsdata v] ++ seekSeq .fs k ++ [.inFsdata]) s = .next t ∧ t.reply = some v ∧
      t.fsDev.cursor.toNat = k.toNat + 1 ∧ t.fsDev.size = s.fsDev.size ∧
      ∀ j, j ≠ k.toNat → t.fsDev.buffer[j]? = s.fsDev.buffer[j]?

/-- R93, R94. The contained categories: an out-of-range access is recorded, a read of it answers 0; a write at or past
`size` and input beyond the capacity are dropped silently, a read there is zero-filled; no other part changes. -/
def Obligations.OverrunsAreContained : Prop :=
  (∀ (i : Instr) (s : State), faultCategory i s = some .port ↔
      (∃ p, i = .inUnmapped p) ∨ ∃ p d, i = .outUnmapped p d) ∧
    (∀ (p : Port) (s : State),
      exec (.inUnmapped p) s = .next { s with diag := s.diag ++ [.unmappedRead p], reply := some 0 }) ∧
    (∀ (p : Port) (d : Byte) (s : State),
      exec (.outUnmapped p d) s = .next { s with diag := s.diag ++ [.unmappedWrite p d], reply := none }) ∧
    (∀ (i : Instr) (s : State), faultCategory i s = some .overrunWrite ↔
      (∃ d, i = .outFsdata d) ∧ s.fsDev.size.toNat ≤ s.fsDev.cursor.toNat) ∧
    (∀ (i : Instr) (s : State), faultCategory i s = some .overrunWrite → exec i s = .next { s with reply := none }) ∧
    (∀ (id : DevId) (s : State), (s.dev id).size.toNat ≤ (s.dev id).cursor.toNat →
      exec (dataReadOp id) s = .next { s with reply := some 0 }) ∧
    (∀ cfg : RunConfig, bootCategory cfg = some .overrunInput ↔ 32768 < cfg.input.length) ∧
    ∀ cfg : RunConfig, bootCategory cfg = some .overrunInput →
      bootstrap cfg = bootstrap { cfg with input := cfg.input.take 32768 }

/-! ### Seek/tell ports (43_seek_tell.md) -/

/-- R72, R76, R78. A read of a seek port: by the flag it consults (`pending` in Shared mode, `pending_rd` in Independent
mode) the high byte of the cursor, or the low byte; the flag toggles; the cursor stays; one trace record under
`DEBUG_TRACE` (its form is spec D12); nothing else changes. -/
def Obligations.TellReturnsACursorHalf : Prop :=
  ∀ (id : DevId) (i : Instr) (s : State) (f : Bool), (id = .inp ∧ i = .inInseek ∨ id = .fs ∧ i = .inFsseek) →
    f = (if s.params.toggleMode = .shared then (s.dev id).pending else (s.dev id).pendingRd) →
    ∃ t b, exec i s = .next t ∧ t.reply = some b ∧
      (f = false → b.toNat = (s.dev id).cursor.toNat / 256) ∧
      (f = true → b.toNat = (s.dev id).cursor.toNat % 256) ∧
      (s.params.toggleMode = .shared → t.dev id = { s.dev id with pending := !f }) ∧
      (s.params.toggleMode = .independent → t.dev id = { s.dev id with pendingRd := !f }) ∧
      (∀ id', id' ≠ id → t.dev id' = s.dev id') ∧ t.mem = s.mem ∧ t.console = s.console ∧
      t.diag = s.diag ++ (if s.params.debugTrace then [.seekTrace id .tell (if f then .low else .high) b] else []) ∧
      sameControl s t

/-- R73, R77, R79. A write to a seek port: by the flag it consults (`pending` in Shared mode, `pending_wr` in
Independent mode) the cursor becomes `v << 8`, or `v` is OR-ed into the cursor as it stands, which gives exactly
`hi * 256 + lo` when the low byte is still 0; the flag toggles; one trace record under `DEBUG_TRACE` (its form is
spec D12); nothing else changes. -/
def Obligations.SeekSetsACursorHalf : Prop :=
  ∀ (id : DevId) (v : Byte) (i : Instr) (s : State) (f : Bool),
    (id = .inp ∧ i = .outInseek v ∨ id = .fs ∧ i = .outFsseek v) →
    f = (if s.params.toggleMode = .shared then (s.dev id).pending else (s.dev id).pendingWr) →
    ∃ t k, exec i s = .next t ∧ t.reply = none ∧
      (f = false → k.toNat = v.toNat * 256) ∧
      (f = true → k.toNat = (s.dev id).cursor.toNat ||| v.toNat) ∧
      (f = true → (s.dev id).cursor.toNat % 256 = 0 → k.toNat = (s.dev id).cursor.toNat + v.toNat) ∧
      (s.params.toggleMode = .shared → t.dev id = { s.dev id with cursor := k, pending := !f }) ∧
      (s.params.toggleMode = .independent → t.dev id = { s.dev id with cursor := k, pendingWr := !f }) ∧
      (∀ id', id' ≠ id → t.dev id' = s.dev id') ∧ t.mem = s.mem ∧ t.console = s.console ∧
      t.diag = s.diag ++ (if s.params.debugTrace then [.seekTrace id .seek (if f then .low else .high) v] else []) ∧
      sameControl s t

/-- R74. In Shared mode every access of a device's seek port toggles its flag, whatever the direction; no other
transaction writes it, and none reads it: under another value of the flag the transaction does the same. -/
def Obligations.SharedFlagTogglesOnItsPortOnly : Prop :=
  ∀ (id : DevId) (i : Instr) (s : State), s.params.toggleMode = .shared → ∃ t, exec i s = .next t ∧
    (t.dev id).pending = Bool.xor (s.dev id).pending (isTellOf id i || isSeekOf id i) ∧
    (isTellOf id i = false → isSeekOf id i = false → ∀ v,
      exec i (s.setDev id { s.dev id with pending := v }) = .next (t.setDev id { t.dev id with pending := v }))

/-- The round-trip law (43_seek_tell.md section 4, which the spec marks derived), in both modes: with the flags false,
TELL returns the halves of the cursor, and SEEK with these bytes gives the device back as it was. -/
def Obligations.TellThenSeekRestoresTheDevice : Prop :=
  ∀ (id : DevId) (s : State), (s.dev id).flag s.params.toggleMode .tell = false →
    (s.dev id).flag s.params.toggleMode .seek = false →
    ∃ h l, repliesOf (tellSeq id) s = [h, l] ∧ h.toNat = (s.dev id).cursor.toNat / 256 ∧
      l.toNat = (s.dev id).cursor.toNat % 256 ∧
      ∃ t, execSeq (tellSeq id ++ [seekOp id h, seekOp id l]) s = .next t ∧ t.dev id = s.dev id ∧
        (∀ id', id' ≠ id → t.dev id' = s.dev id') ∧ t.mem = s.mem ∧ t.console = s.console ∧ sameControl s t

/-- The seek-then-read law (43_seek_tell.md section 4, which the spec marks derived), for every 16-bit `k` and both
modes. -/
def Obligations.SeekThenReadReadsAtK : Prop :=
  ∀ (id : DevId) (k : Word16) (s : State), (s.dev id).wf id.cap = true →
    (s.dev id).flag s.params.toggleMode .seek = false →
    ∃ t u, execSeq (seekSeq id k) s = .next t ∧ (t.dev id).cursor = k ∧
      (t.dev id).flag s.params.toggleMode .seek = false ∧ exec (dataReadOp id) t = .next u ∧
      (k.toNat < (s.dev id).size.toNat →
        u.reply = (s.dev id).buffer[k.toNat]? ∧ (u.dev id).cursor.toNat = k.toNat + 1) ∧
      ((s.dev id).size.toNat ≤ k.toNat → u.reply = some 0 ∧ (u.dev id).cursor = k)

/-- Switching direction in mid-sequence in Shared mode (70_reset_and_hazards.md section 3): a seek half after a tell
half is OR-ed in, a tell half after a seek half returns the low byte, and both leave the flag false. -/
def Obligations.SwitchingDirectionGivesTheRulesResult : Prop :=
  ∀ (id : DevId) (v : Byte) (s : State), s.params.toggleMode = .shared → (s.dev id).pending = false →
    (∃ t, execSeq [tellOp id, seekOp id v] s = .next t ∧
      (t.dev id).cursor.toNat = (s.dev id).cursor.toNat ||| v.toNat ∧ (t.dev id).pending = false) ∧
    ∃ t, execSeq [seekOp id v, tellOp id] s = .next t ∧ t.reply = some 0 ∧
      (t.dev id).cursor.toNat = v.toNat * 256 ∧ (t.dev id).pending = false

/-- A data read between the halves of a seek (70_reset_and_hazards.md section 3, which the spec marks derived): the
second half is OR-ed into the advanced cursor, in both modes. -/
def Obligations.DataReadBetweenSeekHalves : Prop :=
  ∀ (id : DevId) (h l : Byte) (s : State), (s.dev id).wf id.cap = true →
    (s.dev id).flag s.params.toggleMode .seek = false →
    ∃ t, execSeq [seekOp id h, dataReadOp id, seekOp id l] s = .next t ∧
      (t.dev id).flag s.params.toggleMode .seek = false ∧
      (t.dev id).cursor.toNat =
        if h.toNat * 256 < (s.dev id).size.toNat then (h.toNat * 256 + 1) ||| l.toNat else h.toNat * 256 + l.toNat

/-- A torn tell (70_reset_and_hazards.md section 3, which the spec marks derived): with a data read between the two
halves, each half is of the cursor at its own access, in both modes. -/
def Obligations.TornTellReadsTwoCursors : Prop :=
  ∀ (id : DevId) (s : State), (s.dev id).wf id.cap = true → (s.dev id).flag s.params.toggleMode .tell = false →
    (s.dev id).cursor.toNat < (s.dev id).size.toNat →
    ∃ h v l, repliesOf [tellOp id, dataReadOp id, tellOp id] s = [h, v, l] ∧
      h.toNat = (s.dev id).cursor.toNat / 256 ∧ l.toNat = ((s.dev id).cursor.toNat + 1) % 256 ∧
      some v = (s.dev id).buffer[(s.dev id).cursor.toNat]?

/-! ### Whole runs of any core -/

/-- The flag parity invariant (70_reset_and_hazards.md section 3, which the spec marks derived), over every run of every
core: a flag is its value at the start of the run, flipped once for every access that consults it; after the bootstrap
every flag is false, so it is the parity since reset. -/
def Obligations.FlagsAreParities : Prop :=
  (∀ (c : CpuCore) (n : Nat) (s t : State) (id : DevId), runWith c n s = .next t →
      (s.params.toggleMode = .shared →
        (t.dev id).pending =
          Bool.xor (s.dev id).pending (oddCount (fun i => isTellOf id i || isSeekOf id i) (issued c n s))) ∧
      (s.params.toggleMode = .independent →
        (t.dev id).pendingRd = Bool.xor (s.dev id).pendingRd (oddCount (isTellOf id) (issued c n s)) ∧
        (t.dev id).pendingWr = Bool.xor (s.dev id).pendingWr (oddCount (isSeekOf id) (issued c n s)))) ∧
    ∀ (cfg : RunConfig) (s : State) (id : DevId), bootstrap cfg = .next s →
      (s.dev id).pending = false ∧ (s.dev id).pendingRd = false ∧ (s.dev id).pendingWr = false

/-- R17. No step of any run changes a device's size, or the length of its buffer. -/
def Obligations.SizesNeverChange : Prop :=
  ∀ (c : CpuCore) (n : Nat) (s t : State) (id : DevId), runWith c n s = .next t →
    (t.dev id).size = (s.dev id).size ∧ (t.dev id).buffer.length = (s.dev id).buffer.length

/-- IN's content never changes (42_data_port.md section 4, which the spec marks derived), and no step changes a
parameter of the run (10_state.md section 6), over every run of every core. -/
def Obligations.InputContentNeverChanges : Prop :=
  ∀ (c : CpuCore) (n : Nat) (s t : State), runWith c n s = .next t →
    t.inDev.buffer = s.inDev.buffer ∧ t.params = s.params

/-- R21. The console is empty after the bootstrap, and over every run of every core it grows by exactly the bytes of the
OUT_STDIO transactions, in order. -/
def Obligations.ConsoleIsTheStdioWritesInOrder : Prop :=
  (∀ (cfg : RunConfig) (s : State), bootstrap cfg = .next s → s.console = []) ∧
    ∀ (c : CpuCore) (n : Nat) (s t : State), runWith c n s = .next t →
      t.console = s.console ++ (issued c n s).filterMap consoleByte

/-- The debug build is invisible (43_seek_tell.md section 3: "The trace never changes any device, memory or console
state, and no read value depends on it."): two states that differ only in the diagnostic log and in `DEBUG_TRACE` run
alike under every core, and end differing only so. -/
def Obligations.DebugTraceIsInvisible : Prop :=
  ∀ (c : CpuCore) (n : Nat) (s s' t : State), s.eraseDebug = s'.eraseDebug → runWith c n s = .next t →
    ∃ t', runWith c n s' = .next t' ∧ t'.eraseDebug = t.eraseDebug

/-! ### The controller (44_execution_loop.md) -/

/-- Between two CPU steps the controller tests `halted` (44_execution_loop.md section 2; the test before the first step
is spec D4). If it is true, the controller is Halted, the output is the console log, or the 65536 bytes of memory in
ascending order, the run ended with success, a summary is recorded under `DEBUG_TRACE`, and memory, devices and console
are as they were. If it is false, only the core's step begins. -/
def Obligations.HaltTestDecides : Prop :=
  ∀ (c : CpuCore) (s : State), s.loop = .running → s.bus = .between →
    (c.halted s.cpu = true → ∃ t out, stepWith c s = .next t ∧ t.loop = .halted ∧ t.output = some out ∧
      t.exit = some .success ∧
      (s.params.outputMode = .console → out = s.console) ∧
      (s.params.outputMode = .memDump →
        out.length = 65536 ∧ ∀ a : Addr, out[a.toNat]? = some (s.mem.read a.toNat)) ∧
      t.diag = s.diag ++ (if s.params.debugTrace then [.haltSummary (c.acc s.cpu) (c.pair s.cpu)] else []) ∧
      t.mem = s.mem ∧ sameDevices s t ∧ t.console = s.console ∧ t.params = s.params ∧ t.cpu = s.cpu) ∧
    (c.halted s.cpu = false → stepWith c s = .next { s with bus := .inStep, reply := none })

/-- R86. From Halted no state is reachable: no step has a next state, and a run that starts there is that state. -/
def Obligations.HaltedIsTerminal : Prop :=
  ∀ (c : CpuCore) (s : State), s.loop = .halted →
    (∀ t, stepWith c s ≠ .next t) ∧ ∀ n t, runWith c n s = .next t → t = s

/-- R23. After the bootstrap the controller is Running; it becomes Halted only by the controller's test, between CPU
steps, when the core reports `halted`; and nothing is reachable from Halted. -/
def Obligations.OnlyTheHaltTestHalts : Prop :=
  (∀ (cfg : RunConfig) (s : State), bootstrap cfg = .next s → s.loop = .running) ∧
    (∀ (c : CpuCore) (s t : State), stepWith c s = .next t →
      s.loop = .running ∧ (t.loop = .halted ↔ s.bus = .between ∧ c.halted s.cpu = true)) ∧
    ∀ (c : CpuCore) (s t : State), s.loop = .halted → stepWith c s ≠ .next t

/-- Scenario D (44_execution_loop.md section 2; N = 0 is spec D4), from every Running state between two CPU steps, as
every bootstrap leaves it (`ControllerAfterReset`), and for every core whose `halted` is tested false before each of
`n` CPU steps of that run and true after them: once the run has halted it called `step()` exactly `n` times and flushed
exactly once; before that it called it at most `n` times and flushed never. -/
def Obligations.ExactlyNStepsThenOneFlush : Prop :=
  ∀ (c : CpuCore) (n : Nat) (s t : State) (k : Nat), s.loop = .running → s.bus = .between → c.haltsAfter s n →
    runWith c k s = .next t →
    (t.loop = .halted →
      cpuSteps c k s = n ∧ (eventsWith c k s).count .halt = 1 ∧ t.output = some (haltOutput t)) ∧
    (t.loop = .running →
      cpuSteps c k s ≤ n ∧ (eventsWith c k s).count .halt = 0 ∧ t.output = s.output)

/-- The run of such a core ends, if its steps return (the assumption of R83, spec D25, log 13): the controller is
Halted, the output stands, the run ended with success. -/
def Obligations.ACoreThatHaltsEndsItsRun : Prop :=
  ∀ (c : CpuCore) (n : Nat) (s : State), s.loop = .running → s.bus = .between → c.haltsAfter s n → c.stepsReturn s →
    ∃ k t, runWith c k s = .next t ∧ t.loop = .halted ∧ t.output = some (haltOutput t) ∧ t.exit = some .success

/-- What the host may have received before halt is a prefix of what it receives at halt (spec D6; log 20), over every
run of every core. -/
def Obligations.HostHoldsAPrefixOfTheOutput : Prop :=
  ∀ (c : CpuCore) (n : Nat) (s t : State) (bs out : List Byte), s.output = none → s.hostMayHold bs = true →
    runWith c n s = .next t → t.output = some out → bs <+: out

/-! ### Reset (70_reset_and_hazards.md, 10_state.md) -/

/-- R106, R108. Whatever stood before, after the bootstrap of a configuration that fits FS holds its image with its
length as size and cursor 0, IN holds the first 32768 bytes of the input at most (reset step 4), with their number as
size and cursor 0, and every flag is false: two tells of a device then return 0 and 0. -/
def Obligations.DevicesAfterReset : Prop :=
  ∀ (s0 : State) (cfg : RunConfig), cfg.bootImg.length ≤ 65536 → cfg.progImg.length ≤ 47104 →
    cfg.fsImg.length ≤ 65535 → ∃ t, bootstrapFrom s0 cfg = .next t ∧
      t.fsDev.buffer = cfg.fsImg ∧ t.fsDev.size.toNat = cfg.fsImg.length ∧ t.fsDev.cursor = 0 ∧
      t.inDev.buffer = cfg.input.take 32768 ∧ t.inDev.size.toNat = min cfg.input.length 32768 ∧ t.inDev.cursor = 0 ∧
      ∀ id, (t.dev id).pending = false ∧ (t.dev id).pendingRd = false ∧ (t.dev id).pendingWr = false ∧
        repliesOf (tellSeq id) t = [0, 0]

/-- Memory after the bootstrap (70_reset_and_hazards.md section 1; MEM_INIT is spec D7, the program image winning on
overlap is spec D9), whatever stood before. -/
def Obligations.MemoryAfterReset : Prop :=
  ∀ (s0 t : State) (cfg : RunConfig) (a : Addr), bootstrapFrom s0 cfg = .next t →
    (0x4800 ≤ a.toNat → a.toNat < 0x4800 + cfg.progImg.length →
      some (t.mem.read a.toNat) = cfg.progImg[a.toNat - 0x4800]?) ∧
    (a.toNat < cfg.bootImg.length → (a.toNat < 0x4800 ∨ 0x4800 + cfg.progImg.length ≤ a.toNat) →
      some (t.mem.read a.toNat) = cfg.bootImg[a.toNat]?) ∧
    (cfg.bootImg.length ≤ a.toNat → (a.toNat < 0x4800 ∨ 0x4800 + cfg.progImg.length ≤ a.toNat) →
      t.mem.read a.toNat = cfg.memInit a)

/-- The sinks, the parameters and the controller after the bootstrap (70_reset_and_hazards.md section 1, reset step 6,
spec D10; the interface fields are the model's, log 2, log 7 and log 9), whatever stood before. -/
def Obligations.ControllerAfterReset : Prop :=
  ∀ (s0 t : State) (cfg : RunConfig), bootstrapFrom s0 cfg = .next t →
    t.console = [] ∧ t.diag = [] ∧ t.loop = .running ∧ t.params = cfg.params ∧ t.bus = .between ∧ t.reply = none ∧
      t.output = none ∧ t.exit = none ∧ t.cpu = Config.coreResetCode

/-- A configuration has a run exactly when its images fit (70_reset_and_hazards.md section 1, spec D8). -/
def Obligations.BootstrapRefusesWhatDoesNotFit : Prop :=
  ∀ (s0 : State) (cfg : RunConfig),
    ((∃ t, bootstrapFrom s0 cfg = .next t) ↔
      cfg.bootImg.length ≤ 65536 ∧ cfg.progImg.length ≤ 47104 ∧ cfg.fsImg.length ≤ 65535) ∧
    ((∃ i, bootstrapFrom s0 cfg = .refused (.imageDoesNotFit i)) ↔
      65536 < cfg.bootImg.length ∨ 47104 < cfg.progImg.length ∨ 65535 < cfg.fsImg.length)

/-! ### The invariant -/

/-- The reset state meets the invariant (its image and input are the model's choice, log 4). -/
def Obligations.ResetMeetsTheInvariant : Prop := State.reset.inv = true

/-- Every bootstrapped state meets the invariant (10_state.md sections 2, 3 and 6). -/
def Obligations.BootstrapMeetsTheInvariant : Prop :=
  ∀ (cfg : RunConfig) (t : State), bootstrap cfg = .next t → t.inv = true

/-- Every step of every core keeps the invariant (10_state.md sections 2 to 4): memory canonical, a device's buffer as
long as its size and within its capacity, the flags of the other mode false, the records of the log legal, the output
present exactly at halt and equal to the bytes of 44_execution_loop.md section 2. -/
def Obligations.StepKeepsTheInvariant : Prop :=
  ∀ (c : CpuCore) (s t : State), s.inv = true → stepWith c s = .next t → t.inv = true

/-- Scenario D as an invariant of the step (44_execution_loop.md section 2; N = 0 is spec D4): under a core whose code
counts its completed CPU steps and halts at `n`, the count is at most `n` between two CPU steps, below `n` inside one,
and `n` in Halted; every step keeps that, the controller halts only at a test that finds `n`, and the bootstrap leaves
it so when the reset code counts 0. -/
def Obligations.StepKeepsTheStepCount : Prop :=
  ∀ (c : CpuCore) (age : Nat → Nat) (n : Nat), c.counts age n →
    (∀ s t, s.ageWf age n = true → stepWith c s = .next t →
      t.ageWf age n = true ∧
        (t.loop = .halted → s.bus = .between ∧ c.halted s.cpu = true ∧ age s.cpu = n ∧ t.cpu = s.cpu)) ∧
    ∀ (cfg : RunConfig) (s : State), age Config.coreResetCode = 0 → bootstrap cfg = .next s → s.ageWf age n = true

/-! ### Device state over runs, and accesses between halves -/

/-- The block's state is its transactions applied one after another in issue order, over every run of every core, so
each sees the device state that every earlier one left (20_memory.md section 3). Nothing else of a run changes memory, a
device or the console, nor, before halt, the diagnostic log. -/
def Obligations.RunsApplyTheirTransactionsInOrder : Prop :=
  ∀ (c : CpuCore) (n : Nat) (s t : State), runWith c n s = .next t →
    ∃ u, execSeq (issued c n s) s = .next u ∧ t.mem = u.mem ∧ sameDevices u t ∧ t.console = u.console ∧
      (t.loop = .running → t.diag = u.diag)

/-- The content of FS over every run of every core (42_data_port.md section 3: "The change stays in `FS.buffer` for the
rest of the run."; 20_memory.md section 3): each byte is that of the latest OUT_FSDATA that met the cursor there inside
the content, or as at the start of the run; and that is what IN_FSDATA returns at the cursor. -/
def Obligations.FsContentIsTheLatestWrites : Prop :=
  ∀ (c : CpuCore) (n : Nat) (s t : State), s.fsDev.wf 65535 = true → runWith c n s = .next t →
    (∀ j, t.fsDev.buffer[j]? = (latestFsStore j (applied c n s)).or s.fsDev.buffer[j]?) ∧
      (t.fsDev.cursor.toNat < s.fsDev.size.toNat → ∃ u b, exec .inFsdata t = .next u ∧ u.reply = some b ∧
        some b = (latestFsStore t.fsDev.cursor.toNat (applied c n s)).or s.fsDev.buffer[t.fsDev.cursor.toNat]?)

/-- A byte written at `k` inside the filesystem is read back by a seek to `k` and a data read at any later time of the
run, under every core, as long as no other write met the cursor at `k` (42_data_port.md section 3), in both toggle
modes. -/
def Obligations.FsWriteIsReadBackLater : Prop :=
  ∀ (c : CpuCore) (n : Nat) (k : Word16) (v : Byte) (s t u : State), s.fsDev.wf 65535 = true → s.fsDev.cursor = k →
    k.toNat < s.fsDev.size.toNat → exec (.outFsdata v) s = .next t → runWith c n t = .next u →
    latestFsStore k.toNat (applied c n t) = none → u.fsDev.flag u.params.toggleMode .seek = false →
    ∃ x, execSeq (seekSeq .fs k ++ [.inFsdata]) u = .next x ∧ x.reply = some v ∧ x.fsDev.cursor.toNat = k.toNat + 1

/-- The other accesses between the halves of a seek (70_reset_and_hazards.md section 3, which the spec marks derived),
in both modes. A data write of the filesystem stores its byte at `h * 256` if that is inside the content, and the second
half is OR-ed into the advanced cursor. A transaction that is none of the device's ports is harmless: the seek is
exact. -/
def Obligations.OtherAccessesBetweenSeekHalves : Prop :=
  (∀ (h v l : Byte) (s : State), s.fsDev.wf 65535 = true → s.fsDev.flag s.params.toggleMode .seek = false →
    ∃ t, execSeq [.outFsseek h, .outFsdata v, .outFsseek l] s = .next t ∧
      t.fsDev.flag s.params.toggleMode .seek = false ∧ t.fsDev.size = s.fsDev.size ∧
      (h.toNat * 256 < s.fsDev.size.toNat →
        t.fsDev.cursor.toNat = (h.toNat * 256 + 1) ||| l.toNat ∧ t.fsDev.buffer[h.toNat * 256]? = some v ∧
          ∀ j, j ≠ h.toNat * 256 → t.fsDev.buffer[j]? = s.fsDev.buffer[j]?) ∧
      (s.fsDev.size.toNat ≤ h.toNat * 256 →
        t.fsDev.cursor.toNat = h.toNat * 256 + l.toNat ∧ t.fsDev.buffer = s.fsDev.buffer)) ∧
    ∀ (id : DevId) (i : Instr) (h l : Byte) (s : State), reachesDevice id i = false →
      (s.dev id).flag s.params.toggleMode .seek = false →
      ∃ t, execSeq [seekOp id h, i, seekOp id l] s = .next t ∧
        (t.dev id).flag s.params.toggleMode .seek = false ∧
        (t.dev id).cursor.toNat = h.toNat * 256 + l.toNat ∧ (s.dev id).sameContent (t.dev id)

/-- A data write between the two halves of a tell (70_reset_and_hazards.md section 3, which the spec marks derived), in
both modes: each half is of the cursor at its own access, and the byte is stored at the cursor of the write. -/
def Obligations.WriteBetweenTellHalves : Prop :=
  ∀ (v : Byte) (s : State), s.fsDev.wf 65535 = true → s.fsDev.flag s.params.toggleMode .tell = false →
    ∃ h l t, repliesOf [.inFsseek, .outFsdata v, .inFsseek] s = [h, l] ∧
      execSeq [.inFsseek, .outFsdata v, .inFsseek] s = .next t ∧
      h.toNat = s.fsDev.cursor.toNat / 256 ∧ t.fsDev.flag s.params.toggleMode .tell = false ∧
      (s.fsDev.cursor.toNat < s.fsDev.size.toNat →
        l.toNat = (s.fsDev.cursor.toNat + 1) % 256 ∧ t.fsDev.buffer[s.fsDev.cursor.toNat]? = some v) ∧
      (s.fsDev.size.toNat ≤ s.fsDev.cursor.toNat →
        l.toNat = s.fsDev.cursor.toNat % 256 ∧ t.fsDev.buffer = s.fsDev.buffer)
end

