-- ==== Sys2Proof/Laws/Memory.lean ====
section
/-! SUPPORT. The laws of the memory operations: read after write, and that every operation keeps the canonical form. -/

namespace Sys2Proof
namespace Machine

@[simp] theorem Memory.read_nil (a : Nat) : Memory.read [] a = Config.unlistedByte := rfl

/-- An address below every listed one reads as an unlisted address. -/
theorem Memory.read_of_lt {m : Memory} {lo a : Nat} (h : m.wfFrom lo = true) (ha : a < lo) :
    m.read a = Config.unlistedByte := by
  induction m generalizing lo with
  | nil => rfl
  | cons x rest ih =>
    obtain ⟨b, v⟩ := x
    simp only [Memory.wfFrom, Bool.and_eq_true, decide_eq_true_eq] at h
    obtain ⟨⟨⟨hlo, -⟩, -⟩, hrest⟩ := h
    have : a ≠ b := by omega
    simp [Memory.read, this, ih hrest (by omega)]

/-- A lower bound may be lowered. -/
theorem Memory.wfFrom_mono {m : Memory} {lo lo' : Nat} (h : m.wfFrom lo = true) (hl : lo' ≤ lo) :
    m.wfFrom lo' = true := by
  cases m with
  | nil => rfl
  | cons x rest =>
    obtain ⟨b, v⟩ := x
    simp only [Memory.wfFrom, Bool.and_eq_true, decide_eq_true_eq] at h ⊢
    obtain ⟨⟨⟨hlo, hb⟩, hv⟩, hrest⟩ := h
    exact ⟨⟨⟨by omega, hb⟩, hv⟩, hrest⟩

/-- A write leaves every other address alone, in any list. -/
theorem Memory.read_write_of_ne (m : Memory) {a b : Nat} (v : Byte) (h : b ≠ a) :
    (m.write a v).read b = m.read b := by
  induction m with
  | nil =>
    unfold Memory.write
    split <;> simp [Memory.read, h]
  | cons x rest ih =>
    obtain ⟨c, w⟩ := x
    unfold Memory.write
    split
    · split <;> simp [Memory.read, h]
    · split
      · rename_i heq
        subst heq
        split <;> simp [Memory.read, h]
      · simp [Memory.read, ih]

/-- A write is read back, in a canonical memory. -/
theorem Memory.read_write_same {m : Memory} {lo : Nat} (h : m.wfFrom lo = true) (a : Nat) (v : Byte) :
    (m.write a v).read a = v := by
  induction m generalizing lo with
  | nil =>
    unfold Memory.write
    split
    · rename_i hv
      simp [hv]
    · simp [Memory.read]
  | cons x rest ih =>
    obtain ⟨c, w⟩ := x
    simp only [Memory.wfFrom, Bool.and_eq_true, decide_eq_true_eq] at h
    obtain ⟨⟨⟨hlo, hc⟩, hw⟩, hrest⟩ := h
    unfold Memory.write
    split
    · rename_i hlt
      split
      · rename_i hv
        have : a ≠ c := by omega
        simp [Memory.read, this, Memory.read_of_lt hrest (show a < c + 1 by omega), hv]
      · simp [Memory.read]
    · split
      · rename_i heq
        subst heq
        split
        · rename_i hv
          rw [Memory.read_of_lt hrest (by omega), hv]
        · simp [Memory.read]
      · rename_i hne
        simp [Memory.read, hne, ih hrest]

/-- A write inside the address space keeps the canonical form. -/
theorem Memory.wfFrom_write {m : Memory} {lo a : Nat} (h : m.wfFrom lo = true) (hlo : lo ≤ a)
    (ha : a < Config.memSize) (v : Byte) : (m.write a v).wfFrom lo = true := by
  induction m generalizing lo with
  | nil =>
    unfold Memory.write
    split
    · rfl
    · rename_i hv
      simp [Memory.wfFrom, hlo, ha, hv]
  | cons x rest ih =>
    obtain ⟨c, w⟩ := x
    have h0 := h
    simp only [Memory.wfFrom, Bool.and_eq_true, decide_eq_true_eq] at h
    obtain ⟨⟨⟨hc0, hc⟩, hw⟩, hrest⟩ := h
    unfold Memory.write
    split
    · rename_i hlt
      split
      · exact h0
      · rename_i hv
        simp only [Memory.wfFrom, Bool.and_eq_true, decide_eq_true_eq]
        exact ⟨⟨⟨hlo, ha⟩, hv⟩, ⟨⟨by omega, hc⟩, hw⟩, hrest⟩
    · split
      · rename_i heq
        subst heq
        split
        · exact Memory.wfFrom_mono hrest (by omega)
        · rename_i hv
          simp only [Memory.wfFrom, Bool.and_eq_true, decide_eq_true_eq]
          exact ⟨⟨⟨hc0, hc⟩, hv⟩, hrest⟩
      · simp only [Memory.wfFrom, Bool.and_eq_true, decide_eq_true_eq]
        exact ⟨⟨⟨hc0, hc⟩, hw⟩, ih hrest (by omega)⟩

theorem Memory.wf_nil : Memory.wf [] = true := rfl

theorem Memory.wf_write {m : Memory} (h : m.wf = true) {a : Nat} (ha : a < Config.memSize) (v : Byte) :
    (m.write a v).wf = true :=
  Memory.wfFrom_write h (Nat.zero_le a) ha v

/-- Read after write, both cases (R39 for one location). -/
theorem Memory.read_write {m : Memory} (h : m.wf = true) (a b : Nat) (v : Byte) :
    (m.write a v).read b = if b = a then v else m.read b := by
  split
  · rename_i heq
    subst heq
    exact Memory.read_write_same h b v
  · rename_i hne
    exact Memory.read_write_of_ne m v hne

/-- What filling does: the filled addresses read as `f`, the others as before, and the form is kept (R104). -/
theorem Memory.fill_spec (f : Nat → Byte) (n : Nat) (hn : n ≤ Config.memSize) {m : Memory} (h : m.wf = true) :
    (Memory.fill f n m).wf = true ∧
      ∀ a, (Memory.fill f n m).read a = if a < n then f a else m.read a := by
  induction n generalizing m with
  | zero => exact ⟨h, fun a => by simp [Memory.fill]⟩
  | succ n ih =>
    obtain ⟨hw, hr⟩ := ih (by omega) (Memory.wf_write h (show n < Config.memSize by omega) (f n))
    refine ⟨hw, fun a => ?_⟩
    rw [Memory.fill, hr a, Memory.read_write h]
    by_cases h1 : a < n
    · simp [h1, Nat.lt_succ_of_lt h1]
    · by_cases h2 : a = n
      · subst h2
        simp
      · have : ¬ a < n + 1 := by omega
        simp [h1, h2, this]

/-- What loading does: the loaded addresses read as the bytes, the others as before, and the form is kept (R104,
R105). -/
theorem Memory.load_spec (bytes : List Byte) (base : Nat) (hb : base + bytes.length ≤ Config.memSize) {m : Memory}
    (h : m.wf = true) :
    (Memory.load base bytes m).wf = true ∧
      ∀ a, (Memory.load base bytes m).read a =
        if base ≤ a ∧ a < base + bytes.length then bytes.getD (a - base) 0 else m.read a := by
  induction bytes generalizing base m with
  | nil => exact ⟨h, fun a => by simp only [Memory.load, List.length_nil]; rw [if_neg (by omega)]⟩
  | cons b bs ih =>
    simp only [List.length_cons] at hb
    obtain ⟨hw, hr⟩ := ih (base + 1) (by omega) (Memory.wf_write h (show base < Config.memSize by omega) b)
    refine ⟨hw, fun a => ?_⟩
    rw [Memory.load, hr a, Memory.read_write h]
    simp only [List.length_cons]
    by_cases h1 : base + 1 ≤ a ∧ a < base + 1 + bs.length
    · rw [if_pos h1, if_pos (by omega)]
      obtain ⟨k, rfl⟩ : ∃ k, a = base + 1 + k := ⟨a - (base + 1), by omega⟩
      rw [show base + 1 + k - (base + 1) = k by omega, show base + 1 + k - base = k + 1 by omega,
        List.getD_cons_succ]
    · rw [if_neg h1]
      by_cases h2 : a = base
      · subst h2
        rw [if_pos rfl, if_pos (by omega)]
        simp
      · rw [if_neg h2, if_neg (by omega)]

/-- Writing 0 everywhere into the empty memory lists nothing. -/
theorem Memory.fill_unlisted (f : Nat → Byte) (hf : ∀ a, f a = Config.unlistedByte) (n : Nat) :
    Memory.fill f n [] = [] := by
  induction n with
  | zero => rfl
  | succ n ih => simp [Memory.fill, Memory.write, hf, ih]

@[simp] theorem Memory.dump_length (m : Memory) : m.dump.length = Config.memSize := by
  simp [Memory.dump]

/-- Byte `a` of the dump is `MEM[a]` (R88). -/
theorem Memory.dump_getElem? (m : Memory) {a : Nat} (ha : a < Config.memSize) : m.dump[a]? = some (m.read a) := by
  simp [Memory.dump, ha]

end Machine
end Sys2Proof
end

