-- ==== Sys2Proof/Laws/State.lean ====
section
/-! SUPPORT. One lemma per field per update of the state: true by `rfl` (by cases on the device for `setDev`). -/

namespace Sys2Proof
namespace Machine

/-! ### `State.setMem` -/

@[simp] theorem State.setMem_mem (s : State) (m : Memory) : (s.setMem m).mem = m := rfl
@[simp] theorem State.setMem_inDev (s : State) (m : Memory) : (s.setMem m).inDev = s.inDev := rfl
@[simp] theorem State.setMem_fsDev (s : State) (m : Memory) : (s.setMem m).fsDev = s.fsDev := rfl
@[simp] theorem State.setMem_console (s : State) (m : Memory) : (s.setMem m).console = s.console := rfl
@[simp] theorem State.setMem_diag (s : State) (m : Memory) : (s.setMem m).diag = s.diag := rfl
@[simp] theorem State.setMem_loop (s : State) (m : Memory) : (s.setMem m).loop = s.loop := rfl
@[simp] theorem State.setMem_params (s : State) (m : Memory) : (s.setMem m).params = s.params := rfl
@[simp] theorem State.setMem_cpu (s : State) (m : Memory) : (s.setMem m).cpu = s.cpu := rfl
@[simp] theorem State.setMem_bus (s : State) (m : Memory) : (s.setMem m).bus = s.bus := rfl
@[simp] theorem State.setMem_reply (s : State) (m : Memory) : (s.setMem m).reply = s.reply := rfl
@[simp] theorem State.setMem_output (s : State) (m : Memory) : (s.setMem m).output = s.output := rfl
@[simp] theorem State.setMem_exit (s : State) (m : Memory) : (s.setMem m).exit = s.exit := rfl
@[simp] theorem State.setMem_dev (s : State) (m : Memory) (id : DevId) : (s.setMem m).dev id = s.dev id := by
  cases id <;> rfl

/-! ### `State.appendConsole` -/

@[simp] theorem State.appendConsole_mem (s : State) (b : Byte) : (s.appendConsole b).mem = s.mem := rfl
@[simp] theorem State.appendConsole_inDev (s : State) (b : Byte) : (s.appendConsole b).inDev = s.inDev := rfl
@[simp] theorem State.appendConsole_fsDev (s : State) (b : Byte) : (s.appendConsole b).fsDev = s.fsDev := rfl
@[simp] theorem State.appendConsole_console (s : State) (b : Byte) : (s.appendConsole b).console = s.console ++ [b] := rfl
@[simp] theorem State.appendConsole_diag (s : State) (b : Byte) : (s.appendConsole b).diag = s.diag := rfl
@[simp] theorem State.appendConsole_loop (s : State) (b : Byte) : (s.appendConsole b).loop = s.loop := rfl
@[simp] theorem State.appendConsole_params (s : State) (b : Byte) : (s.appendConsole b).params = s.params := rfl
@[simp] theorem State.appendConsole_cpu (s : State) (b : Byte) : (s.appendConsole b).cpu = s.cpu := rfl
@[simp] theorem State.appendConsole_bus (s : State) (b : Byte) : (s.appendConsole b).bus = s.bus := rfl
@[simp] theorem State.appendConsole_reply (s : State) (b : Byte) : (s.appendConsole b).reply = s.reply := rfl
@[simp] theorem State.appendConsole_output (s : State) (b : Byte) : (s.appendConsole b).output = s.output := rfl
@[simp] theorem State.appendConsole_exit (s : State) (b : Byte) : (s.appendConsole b).exit = s.exit := rfl
@[simp] theorem State.appendConsole_dev (s : State) (b : Byte) (id : DevId) : (s.appendConsole b).dev id = s.dev id := by
  cases id <;> rfl

/-! ### `State.emit` -/

@[simp] theorem State.emit_mem (s : State) (r : DiagRecord) : (s.emit r).mem = s.mem := rfl
@[simp] theorem State.emit_inDev (s : State) (r : DiagRecord) : (s.emit r).inDev = s.inDev := rfl
@[simp] theorem State.emit_fsDev (s : State) (r : DiagRecord) : (s.emit r).fsDev = s.fsDev := rfl
@[simp] theorem State.emit_console (s : State) (r : DiagRecord) : (s.emit r).console = s.console := rfl
@[simp] theorem State.emit_diag (s : State) (r : DiagRecord) : (s.emit r).diag = s.diag ++ [r] := rfl
@[simp] theorem State.emit_loop (s : State) (r : DiagRecord) : (s.emit r).loop = s.loop := rfl
@[simp] theorem State.emit_params (s : State) (r : DiagRecord) : (s.emit r).params = s.params := rfl
@[simp] theorem State.emit_cpu (s : State) (r : DiagRecord) : (s.emit r).cpu = s.cpu := rfl
@[simp] theorem State.emit_bus (s : State) (r : DiagRecord) : (s.emit r).bus = s.bus := rfl
@[simp] theorem State.emit_reply (s : State) (r : DiagRecord) : (s.emit r).reply = s.reply := rfl
@[simp] theorem State.emit_output (s : State) (r : DiagRecord) : (s.emit r).output = s.output := rfl
@[simp] theorem State.emit_exit (s : State) (r : DiagRecord) : (s.emit r).exit = s.exit := rfl
@[simp] theorem State.emit_dev (s : State) (r : DiagRecord) (id : DevId) : (s.emit r).dev id = s.dev id := by
  cases id <;> rfl

/-! ### `State.answer` -/

@[simp] theorem State.answer_mem (s : State) (r : Option Byte) : (s.answer r).mem = s.mem := rfl
@[simp] theorem State.answer_inDev (s : State) (r : Option Byte) : (s.answer r).inDev = s.inDev := rfl
@[simp] theorem State.answer_fsDev (s : State) (r : Option Byte) : (s.answer r).fsDev = s.fsDev := rfl
@[simp] theorem State.answer_console (s : State) (r : Option Byte) : (s.answer r).console = s.console := rfl
@[simp] theorem State.answer_diag (s : State) (r : Option Byte) : (s.answer r).diag = s.diag := rfl
@[simp] theorem State.answer_loop (s : State) (r : Option Byte) : (s.answer r).loop = s.loop := rfl
@[simp] theorem State.answer_params (s : State) (r : Option Byte) : (s.answer r).params = s.params := rfl
@[simp] theorem State.answer_cpu (s : State) (r : Option Byte) : (s.answer r).cpu = s.cpu := rfl
@[simp] theorem State.answer_bus (s : State) (r : Option Byte) : (s.answer r).bus = s.bus := rfl
@[simp] theorem State.answer_reply (s : State) (r : Option Byte) : (s.answer r).reply = r := rfl
@[simp] theorem State.answer_output (s : State) (r : Option Byte) : (s.answer r).output = s.output := rfl
@[simp] theorem State.answer_exit (s : State) (r : Option Byte) : (s.answer r).exit = s.exit := rfl
@[simp] theorem State.answer_dev (s : State) (r : Option Byte) (id : DevId) : (s.answer r).dev id = s.dev id := by
  cases id <;> rfl

/-! ### `State.setBus` -/

@[simp] theorem State.setBus_mem (s : State) (b : BusPhase) : (s.setBus b).mem = s.mem := rfl
@[simp] theorem State.setBus_inDev (s : State) (b : BusPhase) : (s.setBus b).inDev = s.inDev := rfl
@[simp] theorem State.setBus_fsDev (s : State) (b : BusPhase) : (s.setBus b).fsDev = s.fsDev := rfl
@[simp] theorem State.setBus_console (s : State) (b : BusPhase) : (s.setBus b).console = s.console := rfl
@[simp] theorem State.setBus_diag (s : State) (b : BusPhase) : (s.setBus b).diag = s.diag := rfl
@[simp] theorem State.setBus_loop (s : State) (b : BusPhase) : (s.setBus b).loop = s.loop := rfl
@[simp] theorem State.setBus_params (s : State) (b : BusPhase) : (s.setBus b).params = s.params := rfl
@[simp] theorem State.setBus_cpu (s : State) (b : BusPhase) : (s.setBus b).cpu = s.cpu := rfl
@[simp] theorem State.setBus_bus (s : State) (b : BusPhase) : (s.setBus b).bus = b := rfl
@[simp] theorem State.setBus_reply (s : State) (b : BusPhase) : (s.setBus b).reply = s.reply := rfl
@[simp] theorem State.setBus_output (s : State) (b : BusPhase) : (s.setBus b).output = s.output := rfl
@[simp] theorem State.setBus_exit (s : State) (b : BusPhase) : (s.setBus b).exit = s.exit := rfl
@[simp] theorem State.setBus_dev (s : State) (b : BusPhase) (id : DevId) : (s.setBus b).dev id = s.dev id := by
  cases id <;> rfl

/-! ### `State.setCpu` -/

@[simp] theorem State.setCpu_mem (s : State) (k : Nat) : (s.setCpu k).mem = s.mem := rfl
@[simp] theorem State.setCpu_inDev (s : State) (k : Nat) : (s.setCpu k).inDev = s.inDev := rfl
@[simp] theorem State.setCpu_fsDev (s : State) (k : Nat) : (s.setCpu k).fsDev = s.fsDev := rfl
@[simp] theorem State.setCpu_console (s : State) (k : Nat) : (s.setCpu k).console = s.console := rfl
@[simp] theorem State.setCpu_diag (s : State) (k : Nat) : (s.setCpu k).diag = s.diag := rfl
@[simp] theorem State.setCpu_loop (s : State) (k : Nat) : (s.setCpu k).loop = s.loop := rfl
@[simp] theorem State.setCpu_params (s : State) (k : Nat) : (s.setCpu k).params = s.params := rfl
@[simp] theorem State.setCpu_cpu (s : State) (k : Nat) : (s.setCpu k).cpu = k := rfl
@[simp] theorem State.setCpu_bus (s : State) (k : Nat) : (s.setCpu k).bus = s.bus := rfl
@[simp] theorem State.setCpu_reply (s : State) (k : Nat) : (s.setCpu k).reply = s.reply := rfl
@[simp] theorem State.setCpu_output (s : State) (k : Nat) : (s.setCpu k).output = s.output := rfl
@[simp] theorem State.setCpu_exit (s : State) (k : Nat) : (s.setCpu k).exit = s.exit := rfl
@[simp] theorem State.setCpu_dev (s : State) (k : Nat) (id : DevId) : (s.setCpu k).dev id = s.dev id := by
  cases id <;> rfl

/-! ### `State.setLoop` -/

@[simp] theorem State.setLoop_mem (s : State) (l : LoopState) : (s.setLoop l).mem = s.mem := rfl
@[simp] theorem State.setLoop_inDev (s : State) (l : LoopState) : (s.setLoop l).inDev = s.inDev := rfl
@[simp] theorem State.setLoop_fsDev (s : State) (l : LoopState) : (s.setLoop l).fsDev = s.fsDev := rfl
@[simp] theorem State.setLoop_console (s : State) (l : LoopState) : (s.setLoop l).console = s.console := rfl
@[simp] theorem State.setLoop_diag (s : State) (l : LoopState) : (s.setLoop l).diag = s.diag := rfl
@[simp] theorem State.setLoop_loop (s : State) (l : LoopState) : (s.setLoop l).loop = l := rfl
@[simp] theorem State.setLoop_params (s : State) (l : LoopState) : (s.setLoop l).params = s.params := rfl
@[simp] theorem State.setLoop_cpu (s : State) (l : LoopState) : (s.setLoop l).cpu = s.cpu := rfl
@[simp] theorem State.setLoop_bus (s : State) (l : LoopState) : (s.setLoop l).bus = s.bus := rfl
@[simp] theorem State.setLoop_reply (s : State) (l : LoopState) : (s.setLoop l).reply = s.reply := rfl
@[simp] theorem State.setLoop_output (s : State) (l : LoopState) : (s.setLoop l).output = s.output := rfl
@[simp] theorem State.setLoop_exit (s : State) (l : LoopState) : (s.setLoop l).exit = s.exit := rfl
@[simp] theorem State.setLoop_dev (s : State) (l : LoopState) (id : DevId) : (s.setLoop l).dev id = s.dev id := by
  cases id <;> rfl

/-! ### `State.finish` -/

@[simp] theorem State.finish_mem (s : State) (out : List Byte) : (s.finish out).mem = s.mem := rfl
@[simp] theorem State.finish_inDev (s : State) (out : List Byte) : (s.finish out).inDev = s.inDev := rfl
@[simp] theorem State.finish_fsDev (s : State) (out : List Byte) : (s.finish out).fsDev = s.fsDev := rfl
@[simp] theorem State.finish_console (s : State) (out : List Byte) : (s.finish out).console = s.console := rfl
@[simp] theorem State.finish_diag (s : State) (out : List Byte) : (s.finish out).diag = s.diag := rfl
@[simp] theorem State.finish_loop (s : State) (out : List Byte) : (s.finish out).loop = s.loop := rfl
@[simp] theorem State.finish_params (s : State) (out : List Byte) : (s.finish out).params = s.params := rfl
@[simp] theorem State.finish_cpu (s : State) (out : List Byte) : (s.finish out).cpu = s.cpu := rfl
@[simp] theorem State.finish_bus (s : State) (out : List Byte) : (s.finish out).bus = s.bus := rfl
@[simp] theorem State.finish_reply (s : State) (out : List Byte) : (s.finish out).reply = s.reply := rfl
@[simp] theorem State.finish_output (s : State) (out : List Byte) : (s.finish out).output = some out := rfl
@[simp] theorem State.finish_exit (s : State) (out : List Byte) : (s.finish out).exit = some .success := rfl
@[simp] theorem State.finish_dev (s : State) (out : List Byte) (id : DevId) : (s.finish out).dev id = s.dev id := by
  cases id <;> rfl

/-! ### `State.setDev` -/

@[simp] theorem State.setDev_mem (s : State) (id : DevId) (d : Device) : (s.setDev id d).mem = s.mem := by
  cases id <;> rfl
@[simp] theorem State.setDev_console (s : State) (id : DevId) (d : Device) : (s.setDev id d).console = s.console := by
  cases id <;> rfl
@[simp] theorem State.setDev_diag (s : State) (id : DevId) (d : Device) : (s.setDev id d).diag = s.diag := by
  cases id <;> rfl
@[simp] theorem State.setDev_loop (s : State) (id : DevId) (d : Device) : (s.setDev id d).loop = s.loop := by
  cases id <;> rfl
@[simp] theorem State.setDev_params (s : State) (id : DevId) (d : Device) : (s.setDev id d).params = s.params := by
  cases id <;> rfl
@[simp] theorem State.setDev_cpu (s : State) (id : DevId) (d : Device) : (s.setDev id d).cpu = s.cpu := by
  cases id <;> rfl
@[simp] theorem State.setDev_bus (s : State) (id : DevId) (d : Device) : (s.setDev id d).bus = s.bus := by
  cases id <;> rfl
@[simp] theorem State.setDev_reply (s : State) (id : DevId) (d : Device) : (s.setDev id d).reply = s.reply := by
  cases id <;> rfl
@[simp] theorem State.setDev_output (s : State) (id : DevId) (d : Device) : (s.setDev id d).output = s.output := by
  cases id <;> rfl
@[simp] theorem State.setDev_exit (s : State) (id : DevId) (d : Device) : (s.setDev id d).exit = s.exit := by
  cases id <;> rfl
@[simp] theorem State.setDev_inp_inDev (s : State) (d : Device) : (s.setDev .inp d).inDev = d := rfl
@[simp] theorem State.setDev_inp_fsDev (s : State) (d : Device) : (s.setDev .inp d).fsDev = s.fsDev := rfl
@[simp] theorem State.setDev_fs_inDev (s : State) (d : Device) : (s.setDev .fs d).inDev = s.inDev := rfl
@[simp] theorem State.setDev_fs_fsDev (s : State) (d : Device) : (s.setDev .fs d).fsDev = d := rfl
@[simp] theorem State.setDev_dev (s : State) (id : DevId) (d : Device) : (s.setDev id d).dev id = d := by
  cases id <;> rfl
theorem State.setDev_dev_of_ne (s : State) {id id' : DevId} (d : Device) (h : id' ≠ id) :
    (s.setDev id d).dev id' = s.dev id' := by
  cases id <;> cases id' <;> first | rfl | exact absurd rfl h
@[simp] theorem State.dev_inp (s : State) : s.dev .inp = s.inDev := rfl
@[simp] theorem State.dev_fs (s : State) : s.dev .fs = s.fsDev := rfl

/-! ### Device updates: what each field becomes -/

@[simp] theorem Device.setFlag_buffer (m : ToggleMode) (dir : Dir) (v : Bool) (d : Device) :
    (d.setFlag m dir v).buffer = d.buffer := by
  cases m <;> cases dir <;> rfl
@[simp] theorem Device.toggle_buffer (m : ToggleMode) (dir : Dir) (d : Device) : (d.toggle m dir).buffer = d.buffer := by
  simp [Device.toggle]
@[simp] theorem Device.afterTell_buffer (m : ToggleMode) (d : Device) : (d.afterTell m).buffer = d.buffer := by
  simp [Device.afterTell]
@[simp] theorem Device.clearFlags_buffer (d : Device) : d.clearFlags.buffer = d.buffer := rfl
@[simp] theorem Device.setFlag_size (m : ToggleMode) (dir : Dir) (v : Bool) (d : Device) :
    (d.setFlag m dir v).size = d.size := by
  cases m <;> cases dir <;> rfl
@[simp] theorem Device.toggle_size (m : ToggleMode) (dir : Dir) (d : Device) : (d.toggle m dir).size = d.size := by
  simp [Device.toggle]
@[simp] theorem Device.afterTell_size (m : ToggleMode) (d : Device) : (d.afterTell m).size = d.size := by
  simp [Device.afterTell]
@[simp] theorem Device.clearFlags_size (d : Device) : d.clearFlags.size = d.size := rfl
@[simp] theorem Device.setFlag_cursor (m : ToggleMode) (dir : Dir) (v : Bool) (d : Device) :
    (d.setFlag m dir v).cursor = d.cursor := by
  cases m <;> cases dir <;> rfl
@[simp] theorem Device.toggle_cursor (m : ToggleMode) (dir : Dir) (d : Device) : (d.toggle m dir).cursor = d.cursor := by
  simp [Device.toggle]
@[simp] theorem Device.afterTell_cursor (m : ToggleMode) (d : Device) : (d.afterTell m).cursor = d.cursor := by
  simp [Device.afterTell]
@[simp] theorem Device.clearFlags_cursor (d : Device) : d.clearFlags.cursor = d.cursor := rfl
@[simp] theorem Device.afterSeek_buffer (m : ToggleMode) (v : Byte) (d : Device) : (d.afterSeek m v).buffer = d.buffer := by
  unfold Device.afterSeek; split <;> simp
@[simp] theorem Device.afterSeek_size (m : ToggleMode) (v : Byte) (d : Device) : (d.afterSeek m v).size = d.size := by
  unfold Device.afterSeek; split <;> simp
@[simp] theorem Device.setFlag_flag (m : ToggleMode) (dir : Dir) (v : Bool) (d : Device) :
    (d.setFlag m dir v).flag m dir = v := by
  cases m <;> cases dir <;> rfl
@[simp] theorem Device.toggle_flag (m : ToggleMode) (dir : Dir) (d : Device) :
    (d.toggle m dir).flag m dir = !d.flag m dir := by
  simp [Device.toggle]
@[simp] theorem Device.clearFlags_flag (m : ToggleMode) (dir : Dir) (d : Device) :
    d.clearFlags.flag m dir = false := by
  cases m <;> cases dir <;> rfl
@[simp] theorem Device.afterRead_buffer (d : Device) : d.afterRead.buffer = d.buffer := by
  unfold Device.afterRead; split <;> rfl
@[simp] theorem Device.afterRead_size (d : Device) : d.afterRead.size = d.size := by
  unfold Device.afterRead; split <;> rfl
@[simp] theorem Device.afterRead_pending (d : Device) : d.afterRead.pending = d.pending := by
  unfold Device.afterRead; split <;> rfl
@[simp] theorem Device.afterRead_pendingRd (d : Device) : d.afterRead.pendingRd = d.pendingRd := by
  unfold Device.afterRead; split <;> rfl
@[simp] theorem Device.afterRead_pendingWr (d : Device) : d.afterRead.pendingWr = d.pendingWr := by
  unfold Device.afterRead; split <;> rfl
@[simp] theorem Device.afterRead_flag (d : Device) (m : ToggleMode) (dir : Dir) :
    d.afterRead.flag m dir = d.flag m dir := by
  cases m <;> cases dir <;> simp [Device.flag]
@[simp] theorem Device.afterWrite_size (v : Byte) (d : Device) : (d.afterWrite v).size = d.size := by
  unfold Device.afterWrite; split <;> rfl
@[simp] theorem Device.afterWrite_pending (v : Byte) (d : Device) : (d.afterWrite v).pending = d.pending := by
  unfold Device.afterWrite; split <;> rfl
@[simp] theorem Device.afterWrite_pendingRd (v : Byte) (d : Device) : (d.afterWrite v).pendingRd = d.pendingRd := by
  unfold Device.afterWrite; split <;> rfl
@[simp] theorem Device.afterWrite_pendingWr (v : Byte) (d : Device) : (d.afterWrite v).pendingWr = d.pendingWr := by
  unfold Device.afterWrite; split <;> rfl
@[simp] theorem Device.afterWrite_flag (v : Byte) (d : Device) (m : ToggleMode) (dir : Dir) :
    (d.afterWrite v).flag m dir = d.flag m dir := by
  cases m <;> cases dir <;> simp [Device.flag]

end Machine
end Sys2Proof
end

