-- ==== Sys2Proof/Laws/Bootstrap.lean ====
section
/-! SUPPORT. What the bootstrap does, and that `State.reset` is the bootstrap of the default run. -/

namespace Sys2Proof
namespace Machine

/-- R110: the configurations that have a run. -/
theorem misfit_eq_none {cfg : RunConfig} :
    misfit cfg = none ↔
      cfg.bootImg.length ≤ 65536 ∧ cfg.progImg.length ≤ 47104 ∧ cfg.fsImg.length ≤ 65535 := by
  unfold misfit
  simp only [Config.memSize, Config.progBase, Config.fsCap]
  by_cases h1 : 65536 < cfg.bootImg.length
  · simp [h1]
  · by_cases h2 : 65536 - 0x4800 < cfg.progImg.length
    · simp [h1, h2]
    · by_cases h3 : 65535 < cfg.fsImg.length
      · simp [h1, h2, h3]
      · simp [h1, h2, h3]
        omega

/-- The memory after reset steps 1 and 2, byte by byte (R104, R105). -/
theorem bootMemory_spec {cfg : RunConfig} (h : misfit cfg = none) :
    (bootMemory cfg).wf = true ∧
      ∀ a, a < 65536 → (bootMemory cfg).read a =
        if 0x4800 ≤ a ∧ a < 0x4800 + cfg.progImg.length then cfg.progImg.getD (a - 0x4800) 0
        else if a < cfg.bootImg.length then cfg.bootImg.getD a 0
        else cfg.memInit (BitVec.ofNat 16 a) := by
  obtain ⟨hb, hp, -⟩ := misfit_eq_none.1 h
  obtain ⟨w1, r1⟩ := Memory.fill_spec (fun a => cfg.memInit (BitVec.ofNat 16 a)) Config.memSize (Nat.le_refl _)
    Memory.wf_nil
  obtain ⟨w2, r2⟩ := Memory.load_spec cfg.bootImg Config.bootBase (by simp only [Config.bootBase, Config.memSize]; omega) w1
  obtain ⟨w3, r3⟩ := Memory.load_spec cfg.progImg Config.progBase (by simp only [Config.progBase, Config.memSize]; omega) w2
  refine ⟨w3, fun a ha => ?_⟩
  simp only [bootMemory]
  rw [r3, r2, r1]
  simp [Config.progBase, Config.bootBase, Config.memSize, ha]

/-- `State.reset` is the bootstrap of the default run. -/
theorem bootstrap_default : bootstrap Config.defaultRun = .next State.reset := by
  have hm : bootMemory Config.defaultRun = [] := by
    simp only [bootMemory, Config.defaultRun, Memory.load]
    exact Memory.fill_unlisted _ (fun _ => rfl) _
  have hf : misfit Config.defaultRun = none := by decide
  simp only [bootstrap, bootstrapFrom, hf, bootMem, hm]
  rfl

end Machine
end Sys2Proof
end

