-- ==== Sys2Proof/Laws/Decode.lean ====
section
/-! SUPPORT. The fields of an assembled word, and what the two port decoders give at each port. -/

namespace Sys2Proof

/-- The bits of an assembled word (R45). -/
theorem TxWord.getLsbD_assemble (s w : Bool) (a : Addr) (d : Byte) (i : Nat) :
    (TxWord.assemble s w a d).getLsbD i =
      if i < 8 then d.getLsbD i
      else if i - 8 < 16 then a.getLsbD (i - 8)
      else if i - 24 < 1 then (BitVec.ofBool w).getLsbD (i - 24)
      else (BitVec.ofBool s).getLsbD (i - 25) := by
  show BitVec.getLsbD (w := 1 + 1 + 16 + 8) (BitVec.ofBool s ++ BitVec.ofBool w ++ a ++ d) i = _
  rw [BitVec.getLsbD_append, BitVec.getLsbD_append, BitVec.getLsbD_append]
  simp only [Nat.sub_sub, Config.dataW, Config.memAddrW, Nat.reduceAdd]

@[simp] theorem TxWord.space_assemble (s w : Bool) (a : Addr) (d : Byte) :
    TxWord.space (TxWord.assemble s w a d) = s := by
  simp [TxWord.space, TxWord.getLsbD_assemble, -BitVec.getLsbD_eq_getElem]

@[simp] theorem TxWord.dir_assemble (s w : Bool) (a : Addr) (d : Byte) :
    TxWord.dir (TxWord.assemble s w a d) = w := by
  simp [TxWord.dir, TxWord.getLsbD_assemble, -BitVec.getLsbD_eq_getElem]

@[simp] theorem TxWord.addr_assemble (s w : Bool) (a : Addr) (d : Byte) :
    TxWord.addr (TxWord.assemble s w a d) = a := by
  apply BitVec.eq_of_getLsbD_eq
  intro i hi
  simp [TxWord.addr, TxWord.getLsbD_assemble, hi]

@[simp] theorem TxWord.data_assemble (s w : Bool) (a : Addr) (d : Byte) :
    TxWord.data (TxWord.assemble s w a d) = d := by
  apply BitVec.eq_of_getLsbD_eq
  intro i hi
  simp [TxWord.data, TxWord.getLsbD_assemble, hi]

/-- The two readings of the field `A` agree (R45, R47). -/
theorem TxWord.presented_eq_addr (w : TxWord) : TxWord.presented w = TxWord.addr w := rfl

@[simp] theorem TxWord.presented_assemble (s w : Bool) (p : PresentedPort) (d : Byte) :
    TxWord.presented (TxWord.assemble s w p d) = p := TxWord.addr_assemble s w p d

/-- Only the low 8 bits of a presented value reach the effective port (R47, R50). -/
theorem maskPort_ofNat (p : Nat) : maskPort (BitVec.ofNat 16 p) = BitVec.ofNat 8 p := by
  apply BitVec.eq_of_toNat_eq
  simp only [maskPort, BitVec.toNat_setWidth, BitVec.toNat_ofNat, Config.portW, Config.portPresentedW]
  omega

theorem maskPort_toNat (p : PresentedPort) : (maskPort p).toNat = p.toNat % 256 := by
  simp [maskPort]

/-- The effective port is the presented value's low 8 bits. -/
theorem maskPort_eq (p : PresentedPort) : maskPort p = BitVec.ofNat 8 p.toNat := by
  apply BitVec.eq_of_toNat_eq
  simp [maskPort]

/-- A mapped port that is none of the four is unmapped, and the other way round (R52). -/
theorem unmapped_iff (p : Port) :
    Config.firstUnmappedPort ≤ p ↔
      p ≠ Config.stdioPort ∧ p ≠ Config.inSeekPort ∧ p ≠ Config.fsDataPort ∧ p ≠ Config.fsSeekPort := by
  simp only [Config.firstUnmappedPort, Config.stdioPort, Config.inSeekPort, Config.fsDataPort, Config.fsSeekPort,
    BitVec.le_def, ne_eq, ← BitVec.toNat_inj]
  simp
  omega

theorem decodePortRead_unmapped {p : Port} (h : Config.firstUnmappedPort ≤ p) :
    decodePortRead p = .inUnmapped p := by
  obtain ⟨h0, h1, h2, h3⟩ := (unmapped_iff p).1 h
  simp [decodePortRead, h0, h1, h2, h3]

theorem decodePortWrite_unmapped {p : Port} (h : Config.firstUnmappedPort ≤ p) (d : Byte) :
    decodePortWrite p d = .outUnmapped p d := by
  obtain ⟨h0, h1, h2, h3⟩ := (unmapped_iff p).1 h
  simp [decodePortWrite, h0, h1, h2, h3]

/-- Decoding the words of the four callbacks (R46, R51). -/
@[simp] theorem decode_rdWord (a : Addr) : decode (rdWord a) = .memRd a := by
  simp [decode, rdWord]

@[simp] theorem decode_wrWord (a : Addr) (d : Byte) : decode (wrWord a d) = .memWr a d := by
  simp [decode, wrWord]

theorem decode_inWord (p : Nat) : decode (inWord p) = decodePortRead (BitVec.ofNat 8 p) := by
  simp [decode, inWord, maskPort_ofNat]

theorem decode_outWord (p : Nat) (d : Byte) : decode (outWord p d) = decodePortWrite (BitVec.ofNat 8 p) d := by
  simp [decode, outWord, maskPort_ofNat]

end Sys2Proof
end

