-- ==== Sys2Proof/Laws/Ops.lean ====
section
/-! SUPPORT. One lemma per part of the state for each shared operation: everything it can do, said once. -/

namespace Sys2Proof
namespace Machine

/-! ### The debug trace (R80) -/

@[simp] theorem traceSeekPort_mem (id : DevId) (dir : Dir) (b : Byte) (s : State) :
    (traceSeekPort id dir b s).mem = s.mem := by
  unfold traceSeekPort; split <;> rfl
@[simp] theorem traceSeekPort_console (id : DevId) (dir : Dir) (b : Byte) (s : State) :
    (traceSeekPort id dir b s).console = s.console := by
  unfold traceSeekPort; split <;> rfl
@[simp] theorem traceSeekPort_loop (id : DevId) (dir : Dir) (b : Byte) (s : State) :
    (traceSeekPort id dir b s).loop = s.loop := by
  unfold traceSeekPort; split <;> rfl
@[simp] theorem traceSeekPort_params (id : DevId) (dir : Dir) (b : Byte) (s : State) :
    (traceSeekPort id dir b s).params = s.params := by
  unfold traceSeekPort; split <;> rfl
@[simp] theorem traceSeekPort_cpu (id : DevId) (dir : Dir) (b : Byte) (s : State) :
    (traceSeekPort id dir b s).cpu = s.cpu := by
  unfold traceSeekPort; split <;> rfl
@[simp] theorem traceSeekPort_bus (id : DevId) (dir : Dir) (b : Byte) (s : State) :
    (traceSeekPort id dir b s).bus = s.bus := by
  unfold traceSeekPort; split <;> rfl
@[simp] theorem traceSeekPort_output (id : DevId) (dir : Dir) (b : Byte) (s : State) :
    (traceSeekPort id dir b s).output = s.output := by
  unfold traceSeekPort; split <;> rfl
@[simp] theorem traceSeekPort_exit (id : DevId) (dir : Dir) (b : Byte) (s : State) :
    (traceSeekPort id dir b s).exit = s.exit := by
  unfold traceSeekPort; split <;> rfl
@[simp] theorem traceSeekPort_inDev (id : DevId) (dir : Dir) (b : Byte) (s : State) :
    (traceSeekPort id dir b s).inDev = s.inDev := by
  unfold traceSeekPort; split <;> rfl
@[simp] theorem traceSeekPort_fsDev (id : DevId) (dir : Dir) (b : Byte) (s : State) :
    (traceSeekPort id dir b s).fsDev = s.fsDev := by
  unfold traceSeekPort; split <;> rfl
@[simp] theorem traceSeekPort_reply (id : DevId) (dir : Dir) (b : Byte) (s : State) :
    (traceSeekPort id dir b s).reply = s.reply := by
  unfold traceSeekPort; split <;> rfl
@[simp] theorem traceSeekPort_dev (id id' : DevId) (dir : Dir) (b : Byte) (s : State) :
    (traceSeekPort id dir b s).dev id' = s.dev id' := by
  cases id' <;> simp
theorem traceSeekPort_diag (id : DevId) (dir : Dir) (b : Byte) (s : State) :
    (traceSeekPort id dir b s).diag = s.diag ++
      match s.params.debugTrace with
      | true => [.seekTrace id dir ((s.dev id).half s.params.toggleMode dir) b]
      | false => [] := by
  unfold traceSeekPort; cases s.params.debugTrace <;> simp

/-! ### `readDataPort` -/

@[simp] theorem readDataPort_mem (id : DevId) (s : State) : (readDataPort id s).mem = s.mem := by
  simp [readDataPort]
@[simp] theorem readDataPort_console (id : DevId) (s : State) : (readDataPort id s).console = s.console := by
  simp [readDataPort]
@[simp] theorem readDataPort_loop (id : DevId) (s : State) : (readDataPort id s).loop = s.loop := by
  simp [readDataPort]
@[simp] theorem readDataPort_params (id : DevId) (s : State) : (readDataPort id s).params = s.params := by
  simp [readDataPort]
@[simp] theorem readDataPort_cpu (id : DevId) (s : State) : (readDataPort id s).cpu = s.cpu := by
  simp [readDataPort]
@[simp] theorem readDataPort_bus (id : DevId) (s : State) : (readDataPort id s).bus = s.bus := by
  simp [readDataPort]
@[simp] theorem readDataPort_output (id : DevId) (s : State) : (readDataPort id s).output = s.output := by
  simp [readDataPort]
@[simp] theorem readDataPort_exit (id : DevId) (s : State) : (readDataPort id s).exit = s.exit := by
  simp [readDataPort]
@[simp] theorem readDataPort_diag (id : DevId) (s : State) : (readDataPort id s).diag = s.diag := by
  simp [readDataPort]
@[simp] theorem readDataPort_reply (id : DevId) (s : State) : (readDataPort id s).reply = some (s.dev id).dataByte := by
  simp [readDataPort]
@[simp] theorem readDataPort_dev (id : DevId) (s : State) : (readDataPort id s).dev id = (s.dev id).afterRead := by
  simp [readDataPort]
theorem readDataPort_dev_of_ne {id id' : DevId} (s : State) (h : id' ≠ id) : (readDataPort id s).dev id' = s.dev id' := by
  simp [readDataPort, State.setDev_dev_of_ne _ _ h]
@[simp] theorem readDataPort_inp_inDev (s : State) : (readDataPort .inp s).inDev = s.inDev.afterRead := by
  simp [readDataPort]
@[simp] theorem readDataPort_fs_inDev (s : State) : (readDataPort .fs s).inDev = s.inDev := by
  simp [readDataPort]
@[simp] theorem readDataPort_fs_fsDev (s : State) : (readDataPort .fs s).fsDev = s.fsDev.afterRead := by
  simp [readDataPort]
@[simp] theorem readDataPort_inp_fsDev (s : State) : (readDataPort .inp s).fsDev = s.fsDev := by
  simp [readDataPort]

/-! ### `writeDataPort` -/

@[simp] theorem writeDataPort_mem (id : DevId) (d : Byte) (s : State) : (writeDataPort id d s).mem = s.mem := by
  simp [writeDataPort]
@[simp] theorem writeDataPort_console (id : DevId) (d : Byte) (s : State) : (writeDataPort id d s).console = s.console := by
  simp [writeDataPort]
@[simp] theorem writeDataPort_loop (id : DevId) (d : Byte) (s : State) : (writeDataPort id d s).loop = s.loop := by
  simp [writeDataPort]
@[simp] theorem writeDataPort_params (id : DevId) (d : Byte) (s : State) : (writeDataPort id d s).params = s.params := by
  simp [writeDataPort]
@[simp] theorem writeDataPort_cpu (id : DevId) (d : Byte) (s : State) : (writeDataPort id d s).cpu = s.cpu := by
  simp [writeDataPort]
@[simp] theorem writeDataPort_bus (id : DevId) (d : Byte) (s : State) : (writeDataPort id d s).bus = s.bus := by
  simp [writeDataPort]
@[simp] theorem writeDataPort_output (id : DevId) (d : Byte) (s : State) : (writeDataPort id d s).output = s.output := by
  simp [writeDataPort]
@[simp] theorem writeDataPort_exit (id : DevId) (d : Byte) (s : State) : (writeDataPort id d s).exit = s.exit := by
  simp [writeDataPort]
@[simp] theorem writeDataPort_diag (id : DevId) (d : Byte) (s : State) : (writeDataPort id d s).diag = s.diag := by
  simp [writeDataPort]
@[simp] theorem writeDataPort_reply (id : DevId) (d : Byte) (s : State) : (writeDataPort id d s).reply = none := by
  simp [writeDataPort]
@[simp] theorem writeDataPort_dev (id : DevId) (d : Byte) (s : State) : (writeDataPort id d s).dev id = (s.dev id).afterWrite d := by
  simp [writeDataPort]
theorem writeDataPort_dev_of_ne {id id' : DevId} (d : Byte) (s : State) (h : id' ≠ id) : (writeDataPort id d s).dev id' = s.dev id' := by
  simp [writeDataPort, State.setDev_dev_of_ne _ _ h]
@[simp] theorem writeDataPort_inp_inDev (d : Byte) (s : State) : (writeDataPort .inp d s).inDev = s.inDev.afterWrite d := by
  simp [writeDataPort]
@[simp] theorem writeDataPort_fs_inDev (d : Byte) (s : State) : (writeDataPort .fs d s).inDev = s.inDev := by
  simp [writeDataPort]
@[simp] theorem writeDataPort_fs_fsDev (d : Byte) (s : State) : (writeDataPort .fs d s).fsDev = s.fsDev.afterWrite d := by
  simp [writeDataPort]
@[simp] theorem writeDataPort_inp_fsDev (d : Byte) (s : State) : (writeDataPort .inp d s).fsDev = s.fsDev := by
  simp [writeDataPort]

/-! ### `tellPort` -/

@[simp] theorem tellPort_mem (id : DevId) (s : State) : (tellPort id s).mem = s.mem := by
  simp [tellPort]
@[simp] theorem tellPort_console (id : DevId) (s : State) : (tellPort id s).console = s.console := by
  simp [tellPort]
@[simp] theorem tellPort_loop (id : DevId) (s : State) : (tellPort id s).loop = s.loop := by
  simp [tellPort]
@[simp] theorem tellPort_params (id : DevId) (s : State) : (tellPort id s).params = s.params := by
  simp [tellPort]
@[simp] theorem tellPort_cpu (id : DevId) (s : State) : (tellPort id s).cpu = s.cpu := by
  simp [tellPort]
@[simp] theorem tellPort_bus (id : DevId) (s : State) : (tellPort id s).bus = s.bus := by
  simp [tellPort]
@[simp] theorem tellPort_output (id : DevId) (s : State) : (tellPort id s).output = s.output := by
  simp [tellPort]
@[simp] theorem tellPort_exit (id : DevId) (s : State) : (tellPort id s).exit = s.exit := by
  simp [tellPort]
@[simp] theorem tellPort_reply (id : DevId) (s : State) : (tellPort id s).reply = some ((s.dev id).tellByte s.params.toggleMode) := by
  simp [tellPort]
@[simp] theorem tellPort_dev (id : DevId) (s : State) : (tellPort id s).dev id = (s.dev id).afterTell s.params.toggleMode := by
  simp [tellPort]
theorem tellPort_dev_of_ne {id id' : DevId} (s : State) (h : id' ≠ id) : (tellPort id s).dev id' = s.dev id' := by
  simp [tellPort, State.setDev_dev_of_ne _ _ h]
@[simp] theorem tellPort_inp_inDev (s : State) : (tellPort .inp s).inDev = s.inDev.afterTell s.params.toggleMode := by
  simp [tellPort]
@[simp] theorem tellPort_fs_inDev (s : State) : (tellPort .fs s).inDev = s.inDev := by
  simp [tellPort]
@[simp] theorem tellPort_fs_fsDev (s : State) : (tellPort .fs s).fsDev = s.fsDev.afterTell s.params.toggleMode := by
  simp [tellPort]
@[simp] theorem tellPort_inp_fsDev (s : State) : (tellPort .inp s).fsDev = s.fsDev := by
  simp [tellPort]

/-! ### `seekPort` -/

@[simp] theorem seekPort_mem (id : DevId) (d : Byte) (s : State) : (seekPort id d s).mem = s.mem := by
  simp [seekPort]
@[simp] theorem seekPort_console (id : DevId) (d : Byte) (s : State) : (seekPort id d s).console = s.console := by
  simp [seekPort]
@[simp] theorem seekPort_loop (id : DevId) (d : Byte) (s : State) : (seekPort id d s).loop = s.loop := by
  simp [seekPort]
@[simp] theorem seekPort_params (id : DevId) (d : Byte) (s : State) : (seekPort id d s).params = s.params := by
  simp [seekPort]
@[simp] theorem seekPort_cpu (id : DevId) (d : Byte) (s : State) : (seekPort id d s).cpu = s.cpu := by
  simp [seekPort]
@[simp] theorem seekPort_bus (id : DevId) (d : Byte) (s : State) : (seekPort id d s).bus = s.bus := by
  simp [seekPort]
@[simp] theorem seekPort_output (id : DevId) (d : Byte) (s : State) : (seekPort id d s).output = s.output := by
  simp [seekPort]
@[simp] theorem seekPort_exit (id : DevId) (d : Byte) (s : State) : (seekPort id d s).exit = s.exit := by
  simp [seekPort]
@[simp] theorem seekPort_reply (id : DevId) (d : Byte) (s : State) : (seekPort id d s).reply = none := by
  simp [seekPort]
@[simp] theorem seekPort_dev (id : DevId) (d : Byte) (s : State) : (seekPort id d s).dev id = (s.dev id).afterSeek s.params.toggleMode d := by
  simp [seekPort]
theorem seekPort_dev_of_ne {id id' : DevId} (d : Byte) (s : State) (h : id' ≠ id) : (seekPort id d s).dev id' = s.dev id' := by
  simp [seekPort, State.setDev_dev_of_ne _ _ h]
@[simp] theorem seekPort_inp_inDev (d : Byte) (s : State) : (seekPort .inp d s).inDev = s.inDev.afterSeek s.params.toggleMode d := by
  simp [seekPort]
@[simp] theorem seekPort_fs_inDev (d : Byte) (s : State) : (seekPort .fs d s).inDev = s.inDev := by
  simp [seekPort]
@[simp] theorem seekPort_fs_fsDev (d : Byte) (s : State) : (seekPort .fs d s).fsDev = s.fsDev.afterSeek s.params.toggleMode d := by
  simp [seekPort]
@[simp] theorem seekPort_inp_fsDev (d : Byte) (s : State) : (seekPort .inp d s).fsDev = s.fsDev := by
  simp [seekPort]

theorem tellPort_diag (id : DevId) (s : State) :
    (tellPort id s).diag = s.diag ++
      match s.params.debugTrace with
      | true =>
        [.seekTrace id .tell ((s.dev id).half s.params.toggleMode .tell) ((s.dev id).tellByte s.params.toggleMode)]
      | false => [] := by
  simp [tellPort, traceSeekPort_diag]

theorem seekPort_diag (id : DevId) (d : Byte) (s : State) :
    (seekPort id d s).diag = s.diag ++
      match s.params.debugTrace with
      | true => [.seekTrace id .seek ((s.dev id).half s.params.toggleMode .seek) d]
      | false => [] := by
  simp [seekPort, traceSeekPort_diag]

/-! ### The meanings as next states -/

theorem exec_tellOp (id : DevId) (s : State) : exec (tellOp id) s = .next (tellPort id s) := by
  cases id <;> rfl
theorem exec_seekOp (id : DevId) (d : Byte) (s : State) : exec (seekOp id d) s = .next (seekPort id d s) := by
  cases id <;> rfl
theorem exec_dataReadOp (id : DevId) (s : State) : exec (dataReadOp id) s = .next (readDataPort id s) := by
  cases id <;> rfl

/-- The next state of every transaction. -/
def execNext (i : Instr) (s : State) : State :=
  match i with
  | .memRd a => s.answer (some (s.mem.read a.toNat))
  | .memWr a d => (s.setMem (s.mem.write a.toNat d)).answer none
  | .inStdio => readDataPort .inp s
  | .inInseek => tellPort .inp s
  | .inFsdata => readDataPort .fs s
  | .inFsseek => tellPort .fs s
  | .inUnmapped port => unmappedRead port s
  | .outStdio d => (s.appendConsole d).answer none
  | .outInseek d => seekPort .inp d s
  | .outFsdata d => writeDataPort .fs d s
  | .outFsseek d => seekPort .fs d s
  | .outUnmapped port d => unmappedWrite port d s

theorem exec_eq (i : Instr) (s : State) : exec i s = .next (execNext i s) := by
  cases i <;> rfl

theorem exec_next_iff {i : Instr} {s t : State} : exec i s = .next t ↔ t = execNext i s := by
  rw [exec_eq]
  exact ⟨fun h => by injection h with h; exact h.symm, fun h => by rw [h]⟩

/-! ### The halt -/

@[simp] theorem haltActions_mem (c : CpuCore) (s : State) : (haltActions c s).mem = s.mem := by
  unfold haltActions haltSummary; dsimp only; split <;> rfl
@[simp] theorem haltActions_inDev (c : CpuCore) (s : State) : (haltActions c s).inDev = s.inDev := by
  unfold haltActions haltSummary; dsimp only; split <;> rfl
@[simp] theorem haltActions_fsDev (c : CpuCore) (s : State) : (haltActions c s).fsDev = s.fsDev := by
  unfold haltActions haltSummary; dsimp only; split <;> rfl
@[simp] theorem haltActions_console (c : CpuCore) (s : State) : (haltActions c s).console = s.console := by
  unfold haltActions haltSummary; dsimp only; split <;> rfl
@[simp] theorem haltActions_params (c : CpuCore) (s : State) : (haltActions c s).params = s.params := by
  unfold haltActions haltSummary; dsimp only; split <;> rfl
@[simp] theorem haltActions_cpu (c : CpuCore) (s : State) : (haltActions c s).cpu = s.cpu := by
  unfold haltActions haltSummary; dsimp only; split <;> rfl
@[simp] theorem haltActions_bus (c : CpuCore) (s : State) : (haltActions c s).bus = s.bus := by
  unfold haltActions haltSummary; dsimp only; split <;> rfl
@[simp] theorem haltActions_reply (c : CpuCore) (s : State) : (haltActions c s).reply = s.reply := by
  unfold haltActions haltSummary; dsimp only; split <;> rfl
@[simp] theorem haltActions_loop (c : CpuCore) (s : State) : (haltActions c s).loop = .halted := by
  unfold haltActions haltSummary; dsimp only; split <;> rfl
@[simp] theorem haltActions_exit (c : CpuCore) (s : State) : (haltActions c s).exit = some .success := rfl
@[simp] theorem haltActions_output (c : CpuCore) (s : State) : (haltActions c s).output = some (haltOutput s) := by
  unfold haltActions haltSummary; dsimp only; split <;> rfl
theorem haltActions_diag (c : CpuCore) (s : State) :
    (haltActions c s).diag = s.diag ++
      match s.params.debugTrace with
      | true => [.haltSummary (c.acc s.cpu) (c.pair s.cpu)]
      | false => [] := by
  unfold haltActions haltSummary; dsimp only [State.setLoop_params, State.setLoop_cpu]
  cases s.params.debugTrace <;> simp
theorem haltOutput_congr {s t : State} (hm : t.mem = s.mem) (hc : t.console = s.console)
    (hp : t.params = s.params) : haltOutput t = haltOutput s := by
  simp [haltOutput, hm, hc, hp]

/-! ### The core's move -/

@[simp] theorem coreMove_mem (c : CpuCore) (s : State) : (coreMove c s).mem = s.mem := by
  unfold coreMove; split <;> rfl
@[simp] theorem coreMove_inDev (c : CpuCore) (s : State) : (coreMove c s).inDev = s.inDev := by
  unfold coreMove; split <;> rfl
@[simp] theorem coreMove_fsDev (c : CpuCore) (s : State) : (coreMove c s).fsDev = s.fsDev := by
  unfold coreMove; split <;> rfl
@[simp] theorem coreMove_console (c : CpuCore) (s : State) : (coreMove c s).console = s.console := by
  unfold coreMove; split <;> rfl
@[simp] theorem coreMove_diag (c : CpuCore) (s : State) : (coreMove c s).diag = s.diag := by
  unfold coreMove; split <;> rfl
@[simp] theorem coreMove_loop (c : CpuCore) (s : State) : (coreMove c s).loop = s.loop := by
  unfold coreMove; split <;> rfl
@[simp] theorem coreMove_params (c : CpuCore) (s : State) : (coreMove c s).params = s.params := by
  unfold coreMove; split <;> rfl
@[simp] theorem coreMove_reply (c : CpuCore) (s : State) : (coreMove c s).reply = s.reply := by
  unfold coreMove; split <;> rfl
@[simp] theorem coreMove_output (c : CpuCore) (s : State) : (coreMove c s).output = s.output := by
  unfold coreMove; split <;> rfl
@[simp] theorem coreMove_exit (c : CpuCore) (s : State) : (coreMove c s).exit = s.exit := by
  unfold coreMove; split <;> rfl
@[simp] theorem beginCpuStep_mem (s : State) : (beginCpuStep s).mem = s.mem := rfl
@[simp] theorem beginCpuStep_inDev (s : State) : (beginCpuStep s).inDev = s.inDev := rfl
@[simp] theorem beginCpuStep_fsDev (s : State) : (beginCpuStep s).fsDev = s.fsDev := rfl
@[simp] theorem beginCpuStep_console (s : State) : (beginCpuStep s).console = s.console := rfl
@[simp] theorem beginCpuStep_diag (s : State) : (beginCpuStep s).diag = s.diag := rfl
@[simp] theorem beginCpuStep_loop (s : State) : (beginCpuStep s).loop = s.loop := rfl
@[simp] theorem beginCpuStep_params (s : State) : (beginCpuStep s).params = s.params := rfl
@[simp] theorem beginCpuStep_cpu (s : State) : (beginCpuStep s).cpu = s.cpu := rfl
@[simp] theorem beginCpuStep_output (s : State) : (beginCpuStep s).output = s.output := rfl
@[simp] theorem beginCpuStep_exit (s : State) : (beginCpuStep s).exit = s.exit := rfl

end Machine
end Sys2Proof
end

