-- ==== Sys2Proof/Laws/Word.lean ====
section
/-! SUPPORT. The ranges of the block's values as numerals, for arithmetic (R6, R7). -/

namespace Sys2Proof

theorem byte_toNat_lt (b : Byte) : b.toNat < 256 := b.isLt

theorem addr_toNat_lt (a : Addr) : a.toNat < 65536 := a.isLt

theorem port_toNat_lt (p : Port) : p.toNat < 256 := p.isLt

theorem presentedPort_toNat_lt (p : PresentedPort) : p.toNat < 65536 := p.isLt

theorem word16_toNat_lt (v : Word16) : v.toNat < 65536 := v.isLt

theorem txWord_toNat_lt (w : TxWord) : w.toNat < 67108864 := w.isLt

end Sys2Proof
end

