-- ==== Sys2Proof/Laws/PerInstr.lean ====
section
/-! SUPPORT. The per-instruction family WordFields: the `S` and `W` bits of an operation's word name its space and its
direction (spec/30_encoding.md R46), and the word's ignored bits are 0 (30_encoding.md section 3). -/

namespace Sys2Proof
namespace Laws

/-- The word of `i` says its space and direction, and carries 0 in every bit a decoder must not look at (R49). -/
def WordFields.Statement (i : Instr) : Prop :=
  TxWord.space (encode i) = i.isPort ∧ TxWord.dir (encode i) = i.isWrite ∧
    (i.isWrite = false → TxWord.data (encode i) = 0) ∧
    (i.isPort = true → (TxWord.presented (encode i)).extractLsb' Config.portW (Config.portPresentedW - Config.portW) = 0)

/-- A port number has no high byte when it is presented as itself. -/
theorem high_byte_of_port (p : Port) : (p.setWidth 16).extractLsb' 8 8 = 0#8 := by
  apply BitVec.eq_of_toNat_eq
  have := port_toNat_lt p
  simp only [BitVec.extractLsb'_toNat, BitVec.toNat_setWidth, Nat.shiftRight_eq_div_pow, BitVec.toNat_ofNat]
  omega

theorem WordFields.memRd (a : Addr) : WordFields.Statement (.memRd a) := by
  simp [Statement, encode, rdWord, Instr.isPort, Instr.isWrite]

theorem WordFields.memWr (a : Addr) (d : Byte) : WordFields.Statement (.memWr a d) := by
  simp [Statement, encode, wrWord, Instr.isPort, Instr.isWrite]

theorem WordFields.inStdio : WordFields.Statement .inStdio := by
  simp [Statement, encode, inWord, Instr.isPort, Instr.isWrite, high_byte_of_port]

theorem WordFields.inInseek : WordFields.Statement .inInseek := by
  simp [Statement, encode, inWord, Instr.isPort, Instr.isWrite, high_byte_of_port]

theorem WordFields.inFsdata : WordFields.Statement .inFsdata := by
  simp [Statement, encode, inWord, Instr.isPort, Instr.isWrite, high_byte_of_port]

theorem WordFields.inFsseek : WordFields.Statement .inFsseek := by
  simp [Statement, encode, inWord, Instr.isPort, Instr.isWrite, high_byte_of_port]

theorem WordFields.inUnmapped (port : Port) : WordFields.Statement (.inUnmapped port) := by
  simp [Statement, encode, inWord, Instr.isPort, Instr.isWrite, high_byte_of_port]

theorem WordFields.outStdio (d : Byte) : WordFields.Statement (.outStdio d) := by
  simp [Statement, encode, outWord, Instr.isPort, Instr.isWrite, high_byte_of_port]

theorem WordFields.outInseek (d : Byte) : WordFields.Statement (.outInseek d) := by
  simp [Statement, encode, outWord, Instr.isPort, Instr.isWrite, high_byte_of_port]

theorem WordFields.outFsdata (d : Byte) : WordFields.Statement (.outFsdata d) := by
  simp [Statement, encode, outWord, Instr.isPort, Instr.isWrite, high_byte_of_port]

theorem WordFields.outFsseek (d : Byte) : WordFields.Statement (.outFsseek d) := by
  simp [Statement, encode, outWord, Instr.isPort, Instr.isWrite, high_byte_of_port]

theorem WordFields.outUnmapped (port : Port) (d : Byte) : WordFields.Statement (.outUnmapped port d) := by
  simp [Statement, encode, outWord, Instr.isPort, Instr.isWrite, high_byte_of_port]

end Laws
end Sys2Proof
end

