-- ==== Sys2Proof/Laws/Step.lean ====
section
/-! SUPPORT. The spec lemmas of the shared operations, and the inversion lemma of the step: what one step can do, said
once. -/

namespace Sys2Proof
namespace Machine

/-! ### Halves of the cursor (R72, R73) -/

theorem highByte_toNat (v : Word16) : (highByte v).toNat = v.toNat / 256 := by
  have := word16_toNat_lt v
  simp only [highByte, Config.dataW, BitVec.extractLsb'_toNat, Nat.shiftRight_eq_div_pow]
  omega

theorem lowByte_toNat (v : Word16) : (lowByte v).toNat = v.toNat % 256 := by
  simp [lowByte]

theorem seekHigh_toNat (v : Byte) : (seekHigh v).toNat = v.toNat * 256 := by
  have := byte_toNat_lt v
  simp only [seekHigh, widen, Config.dataW, Config.cursorW, BitVec.toNat_shiftLeft, BitVec.toNat_setWidth, Nat.shiftLeft_eq]
  omega

/-- Both halves of a seek give the transmitted value (R73, R81). -/
theorem seekLow_seekHigh (h l : Byte) : seekLow (seekHigh h) l = joinHalves h l := by
  apply BitVec.eq_of_getLsbD_eq
  intro i (hi : i < 16)
  simp only [seekLow, seekHigh, widen, joinHalves, Config.dataW, Config.cursorW, BitVec.getLsbD_or, BitVec.getLsbD_shiftLeft,
    BitVec.getLsbD_setWidth, BitVec.getLsbD_append]
  by_cases h8 : i < 8
  · simp [h8, hi]
  · have : l.getLsbD i = false := BitVec.getLsbD_of_ge _ _ (Nat.le_of_not_lt h8)
    simp [h8, hi, this]
    omega

/-- The two halves of a value make it up (R81). -/
theorem joinHalves_halves (v : Word16) : joinHalves (highByte v) (lowByte v) = v := by
  apply BitVec.eq_of_getLsbD_eq
  intro i (hi : i < 16)
  simp only [joinHalves, highByte, lowByte, Config.dataW, BitVec.getLsbD_append, BitVec.getLsbD_extractLsb']
  by_cases h8 : i < 8
  · simp [h8]
  · have h1 : i - 8 < 8 := by omega
    have h2 : 8 + (i - 8) = i := by omega
    simp [h8, h1, h2]

/-! ### Data accesses (R64, R65) -/

theorem Device.inContent_iff (d : Device) : d.inContent = true ↔ d.cursor.toNat < d.size.toNat := by
  simp [Device.inContent, BitVec.lt_def]

/-- A data access inside the content never wraps the cursor (R16, R64). -/
theorem Device.cursor_succ_toNat {d : Device} (h : d.inContent = true) :
    (d.cursor + 1).toNat = d.cursor.toNat + 1 := by
  have h1 := (Device.inContent_iff d).1 h
  have h2 := word16_toNat_lt d.size
  simp only [BitVec.toNat_add]
  rw [Nat.mod_eq_of_lt]
  · rfl
  · simp
    omega

theorem Device.wf_iff {cap : Nat} {d : Device} :
    d.wf cap = true ↔ d.buffer.length = d.size.toNat ∧ d.size.toNat ≤ cap := by
  simp [Device.wf]

theorem Device.wf_afterRead {cap : Nat} {d : Device} (h : d.wf cap = true) : d.afterRead.wf cap = true := by
  simpa [Device.wf] using h

theorem Device.wf_afterWrite {cap : Nat} {d : Device} (h : d.wf cap = true) (v : Byte) :
    (d.afterWrite v).wf cap = true := by
  have hl : (d.afterWrite v).buffer.length = d.buffer.length := by
    unfold Device.afterWrite
    split <;> simp
  simpa [Device.wf, hl] using h

theorem Device.wf_afterTell {cap : Nat} {d : Device} (h : d.wf cap = true) (m : ToggleMode) :
    (d.afterTell m).wf cap = true := by
  simpa [Device.wf] using h

theorem Device.wf_afterSeek {cap : Nat} {d : Device} (h : d.wf cap = true) (m : ToggleMode) (v : Byte) :
    (d.afterSeek m v).wf cap = true := by
  simpa [Device.wf] using h

/-! ### Seek-port accesses (R72–R75) -/

/-- A tell in the high phase: the high byte, the flag set (R72). -/
theorem Device.tell_high {m : ToggleMode} {d : Device} (h : d.flag m .tell = false) :
    d.tellByte m = highByte d.cursor ∧ d.afterTell m = d.setFlag m .tell true := by
  simp [Device.tellByte, Device.afterTell, Device.half, Device.toggle, h]

/-- A tell in the low phase: the low byte, the flag cleared (R72). -/
theorem Device.tell_low {m : ToggleMode} {d : Device} (h : d.flag m .tell = true) :
    d.tellByte m = lowByte d.cursor ∧ d.afterTell m = d.setFlag m .tell false := by
  simp [Device.tellByte, Device.afterTell, Device.half, Device.toggle, h]

/-- A seek in the high phase: the cursor replaced, the flag set (R73). -/
theorem Device.seek_high {m : ToggleMode} {d : Device} (h : d.flag m .seek = false) (v : Byte) :
    d.afterSeek m v = { d with cursor := seekHigh v }.setFlag m .seek true := by
  have h' : ({ d with cursor := seekHigh v } : Device).flag m .seek = false := by
    cases m <;> exact h
  simp [Device.afterSeek, Device.half, Device.toggle, h, h']

/-- A seek in the low phase: the byte OR-ed in, the flag cleared (R73). -/
theorem Device.seek_low {m : ToggleMode} {d : Device} (h : d.flag m .seek = true) (v : Byte) :
    d.afterSeek m v = { d with cursor := seekLow d.cursor v }.setFlag m .seek false := by
  have h' : ({ d with cursor := seekLow d.cursor v } : Device).flag m .seek = true := by
    cases m <;> exact h
  simp [Device.afterSeek, Device.half, Device.toggle, h, h']

/-- What a debug trace can change: one record more, and only under `DEBUG_TRACE` (R80). -/
theorem traceSeekPort_eq (id : DevId) (dir : Dir) (b : Byte) (s : State) :
    traceSeekPort id dir b s =
      { s with diag := s.diag ++
          match s.params.debugTrace with
          | true => [.seekTrace id dir ((s.dev id).half s.params.toggleMode dir) b]
          | false => [] } := by
  unfold traceSeekPort
  cases s.params.debugTrace <;> simp [State.emit]

/-! ### One step -/

/-- What one step can do: the halt, the start of a CPU step, a move of the core, or one transaction. -/
theorem stepWith_cases {c : CpuCore} {s t : State} (h : stepWith c s = .next t) :
    s.loop = .running ∧
      ((s.bus = .between ∧ c.halted s.cpu = true ∧ t = haltActions c s) ∨
        (s.bus = .between ∧ c.halted s.cpu = false ∧ t = beginCpuStep s) ∨
        (s.bus = .inStep ∧ t = coreMove c s) ∨
        ∃ w, s.bus = .presenting w ∧ exec (decode w) (s.setBus .inStep) = .next t) := by
  unfold stepWith at h
  cases hl : s.loop with
  | halted => simp [hl] at h
  | running =>
    refine ⟨rfl, ?_⟩
    cases hb : s.bus with
    | between =>
      cases hh : c.halted s.cpu with
      | true => exact .inl ⟨rfl, rfl, by simpa [hl, hb, hh] using h.symm⟩
      | false => exact .inr (.inl ⟨rfl, rfl, by simpa [hl, hb, hh] using h.symm⟩)
    | inStep => exact .inr (.inr (.inl ⟨rfl, by simpa [hl, hb] using h.symm⟩))
    | presenting w => exact .inr (.inr (.inr ⟨w, rfl, by simpa [hl, hb, applyWord] using h⟩))

/-- A run of `n + 1` steps is a step and a run. -/
theorem runWith_succ {c : CpuCore} {n : Nat} {s t : State} (h : runWith c (n + 1) s = .next t) :
    ∃ u, stepWith c s = .next u ∧ runWith c n u = .next t := by
  unfold runWith at h
  cases hs : stepWith c s with
  | next u => exact ⟨u, rfl, by simpa [hs] using h⟩
  | fault r => simp [hs] at h
  | refused r => simp [hs] at h

/-- A run of `m + n` steps is a run of `m` steps and a run of `n` steps from its end. -/
theorem runWith_add {c : CpuCore} {m : Nat} {s u : State} (h : runWith c m s = .next u) (n : Nat) :
    runWith c (m + n) s = runWith c n u := by
  induction m generalizing s with
  | zero =>
    simp only [runWith, Host.Outcome.next.injEq] at h
    rw [h, Nat.zero_add]
  | succ m ih =>
    obtain ⟨v, hv, hr⟩ := runWith_succ h
    rw [Nat.add_right_comm]
    simpa only [runWith, hv] using ih hr

/-- A run that has stopped with a fault stays stopped. -/
theorem runWith_fault_add {c : CpuCore} {m : Nat} {s : State} {r : Fault} (h : runWith c m s = .fault r) (n : Nat) :
    runWith c (m + n) s = .fault r := by
  induction m generalizing s with
  | zero => cases h
  | succ m ih =>
    rw [Nat.add_right_comm]
    unfold runWith at h ⊢
    cases hs : stepWith c s with
    | next v =>
      rw [hs] at h
      exact ih h
    | fault q =>
      rw [hs] at h
    | refused q =>
      rw [hs] at h
      cases h

/-- What every step keeps, every run keeps. -/
theorem runWith_keeps {c : CpuCore} {P : State → Prop} (hstep : ∀ s t, P s → stepWith c s = .next t → P t)
    {n : Nat} {s t : State} (hs : P s) (h : runWith c n s = .next t) : P t := by
  induction n generalizing s with
  | zero =>
    simp only [runWith, Host.Outcome.next.injEq] at h
    exact h ▸ hs
  | succ n ih =>
    obtain ⟨u, hu, hr⟩ := runWith_succ h
    exact ih (hstep s u hs hu) hr

/-- The step of the machine is the step under its opaque core. -/
theorem step_eq (s : State) : step s = stepWith Config.core s := rfl

end Machine
end Sys2Proof
end

