-- ==== Sys2Proof/Tests/Slice0.lean ====
section
/-! SUPPORT. The model's own tests. Expected results are the vectors of spec/95_test_vectors.md (their ids stand in the
comments) or are computed by hand from the rules named. Then a witness for the hypotheses of each statement. -/

namespace Sys2Proof
namespace Machine
namespace Tests

/-! ### Helpers -/

/-- The next state of an outcome passes the check. -/
def nextHas (o : Host.Outcome State Fault Refusal) (p : State → Bool) : Bool :=
  match o with
  | .next t => p t
  | .fault _ => false
  | .refused _ => false

/-- A device with the given content, cursor and shared flag. -/
def device (bytes : List Byte) (cursor : Word16) (pending : Bool) : Device :=
  ⟨bytes, BitVec.ofNat 16 bytes.length, cursor, pending, false, false⟩

/-- The reset state with the two devices as given. -/
def withDevices (i f : Device) : State := { State.reset with inDev := i, fsDev := f }

/-- The state in Independent mode. -/
def independent (s : State) : State := { s with params := { s.params with toggleMode := .independent } }

/-- The state in the debug build. -/
def debug (s : State) : State := { s with params := { s.params with debugTrace := true } }

/-- The state with the word presented. -/
def presenting (w : TxWord) (s : State) : State := s.setBus (.presenting w)

def fs8 : State := withDevices emptyDevice (device [10, 11, 12, 13, 14, 15, 16, 17] 4 false)
def fsEnd : State := withDevices emptyDevice (device [10, 11, 12, 13, 14, 15, 16, 17] 8 false)
def fs1234 : State := withDevices emptyDevice (device [] 0x1234 false)
def fs1234low : State := withDevices emptyDevice (device [] 0x1234 true)
def inXy : State := withDevices (device [0x78, 0x79] 1 false) emptyDevice
def inXyEnd : State := withDevices (device [0x78, 0x79] 2 false) emptyDevice
def in5 : State := withDevices (device [] 5 false) emptyDevice
def in5low : State := withDevices (device [] 5 true) emptyDevice

/-- A core that presents nothing and counts its steps; it reports `halted` from its `n`-th step on. -/
def countingCore (n : Nat) : CpuCore :=
  ⟨fun k => decide (n ≤ k), fun k _ => .finish (k + 1), fun _ => 0xAA, fun _ => 0x1234⟩

/-- A core whose one step issues the word and then halts (LR2, LR3): states 0, 1 (word presented), 2 on (halted, where
it stays). -/
def oneWordCore (w : TxWord) : CpuCore :=
  ⟨fun k => decide (2 ≤ k), fun k _ => if k = 0 then .present w 1 else .finish 2, fun _ => 0, fun _ => 0⟩

/-- The echo program of 95_test_vectors.md as a core of four states: it reads port 0; a byte 0 halts it, any other goes
to port 0 and the same state comes again. The number of its steps is the input's. -/
def echoCore : CpuCore :=
  ⟨fun k => decide (k = 3),
    fun k r =>
      match k, r with
      | 0, _ => .present (inWord 0) 1
      | 1, some b => if b = 0 then .finish 3 else .present (outWord 0 b) 2
      | 1, none => .finish 3
      | 2, _ => .finish 0
      | _, _ => .finish 3,
    fun _ => 0, fun _ => 0⟩

/-! ### Well-formedness: an ill-formed term for each check -/

theorem test_wf_refuses_in_unmapped_3 : Instr.wf (.inUnmapped 3) = false := by decide
theorem test_wf_refuses_out_unmapped_0 : Instr.wf (.outUnmapped 0 0x41) = false := by decide
theorem test_wf_accepts_the_ends :
    Instr.wf (.inUnmapped 4) = true ∧ Instr.wf (.outUnmapped 255 0) = true := by decide

/-! ### Decoding: words written out bit by bit from 30_encoding.md section 3 (S W, A, D) -/

theorem test_decode_mem_rd : decode 0b00_0100100000000000_00000000#26 = .memRd 0x4800 := by decide
theorem test_decode_mem_rd_ignores_d : decode 0b00_0100100000000000_01010101#26 = .memRd 0x4800 := by decide
theorem test_decode_mem_wr : decode 0b01_1111111111111111_01011010#26 = .memWr 0xFFFF 0x5A := by decide
theorem test_decode_in_stdio : decode 0b10_0000000100000000_00000000#26 = .inStdio := by decide
theorem test_decode_in_inseek : decode 0b10_0000000000000001_00000000#26 = .inInseek := by decide
theorem test_decode_in_fsdata : decode 0b10_0001001000000010_00000000#26 = .inFsdata := by decide
theorem test_decode_in_fsseek : decode 0b10_1111111100000011_01010101#26 = .inFsseek := by decide
theorem test_decode_in_unmapped_4 : decode 0b10_0000000100000100_00000000#26 = .inUnmapped 4 := by decide
theorem test_decode_in_unmapped_255 : decode 0b10_0000000011111111_00000000#26 = .inUnmapped 255 := by decide
theorem test_decode_out_stdio : decode 0b11_0000000000000000_01000001#26 = .outStdio 0x41 := by decide
theorem test_decode_out_inseek : decode 0b11_0000000000000001_11111111#26 = .outInseek 0xFF := by decide
theorem test_decode_out_fsdata : decode 0b11_0001001000000010_01110111#26 = .outFsdata 0x77 := by decide
theorem test_decode_out_fsseek : decode 0b11_0000000000000011_10101011#26 = .outFsseek 0xAB := by decide
theorem test_decode_out_unmapped : decode 0b11_0000000010000000_10011001#26 = .outUnmapped 0x80 0x99 := by decide

/-- The words of the vectors, from the callbacks' arguments (R46, R55). -/
theorem test_words :
    rdWord 0xFFFF = 0x0FFFF00 ∧ wrWord 0x5800 0x42 = 0x1580042 ∧ inWord 0xFF03 = 0x2FF0300 ∧
      outWord 0x1202 0x77 = 0x3120277 ∧ encode (.inUnmapped 0x80) = 0x2008000 ∧
      encode (.outFsseek 0xCD) = 0x30003CD := by decide

/-- A presented port value wider than 16 bits is truncated (R47, spec D2). -/
theorem test_wide_port : decode (inWord 0x30002) = .inFsdata := by decide

/-- A number of more than 26 bits is no transaction word. -/
theorem test_decode_number : decodeTableWord 32 0x4000000 = none ∧ decodeTableWord 32 0x3000041 = some (.outStdio 0x41) := by
  decide

/-- Every row of the opcode table runs as the first instruction after reset. -/
theorem test_rows_run_from_reset :
    (opcodeTable.all fun r => nextHas (step (State.reset.withFetchWord 32 r.pattern.toNat)) fun t =>
      decide (t.bus = .inStep)) = true := by decide

/-- The parameter table of R6: the widths, the sizes they give, and the word of R45 made up of its fields. -/
theorem test_parameters :
    Config.dataW = 8 ∧ Config.memAddrW = 16 ∧ Config.portW = 8 ∧ Config.portPresentedW = 16 ∧ Config.cursorW = 16 ∧
      2 ^ Config.memAddrW = Config.memSize ∧ 2 ^ Config.portW = 256 ∧ Config.inCap = 32768 ∧
      Config.fsCap = 2 ^ Config.cursorW - 1 ∧ Config.wordW = 2 + Config.portPresentedW + Config.dataW := by decide

/-- The region map of R33 covers the address space without a gap. -/
theorem test_regions : (Config.regions.map (·.size)).sum = 65536 := by decide

/-! ### Memory (M1–M6) -/

theorem test_mem_rd_m1 :
    nextHas (exec (.memRd 0) { State.reset with mem := [(0, 0x3E)] }) (fun t => t.reply == some 0x3E && t.mem == [(0, 0x3E)])
      = true := by decide
theorem test_mem_wr_m2 :
    nextHas (exec (.memWr 0xFFFF 0x5A) State.reset) (fun t => t.mem == [(65535, 0x5A)] && t.reply == none) = true := by decide
theorem test_mem_wr_keeps_canonical :
    nextHas (exec (.memWr 0x5800 0) { State.reset with mem := [(3, 1), (0x5800, 0x42), (0x5801, 2)] })
      (fun t => t.mem == [(3, 1), (0x5801, 2)]) = true := by decide

/-! ### Data ports (DP1–DP8) -/

theorem test_in_stdio_dp2 :
    nextHas (exec .inStdio inXy) (fun t => t.reply == some 0x79 && t.inDev.cursor == 2) = true := by decide
theorem test_in_stdio_end_dp2 :
    nextHas (exec .inStdio inXyEnd) (fun t => t.reply == some 0 && t.inDev == inXyEnd.inDev) = true := by decide
theorem test_out_stdio_dp3 :
    nextHas (exec (.outStdio 0x41) { inXy with console := [0x40] })
      (fun t => t.console == [0x40, 0x41] && t.inDev == inXy.inDev) = true := by decide
theorem test_in_fsdata : nextHas (exec .inFsdata fs8) (fun t => t.reply == some 14 && t.fsDev.cursor == 5) = true := by decide
theorem test_out_fsdata_dp5 :
    nextHas (exec (.outFsdata 0xAA) fs8)
      (fun t => t.fsDev.buffer == [10, 11, 12, 13, 0xAA, 15, 16, 17] && t.fsDev.cursor == 5) = true := by decide
theorem test_out_fsdata_dp6 :
    nextHas (exec (.outFsdata 0x55) fsEnd) (fun t => t.fsDev == fsEnd.fsDev && t.diag == []) = true := by decide

/-! ### Seek and tell (ST1–ST6, SI1, SI2, ST12) -/

theorem test_in_fsseek_st1 :
    nextHas (exec .inFsseek fs1234) (fun t => t.reply == some 0x12 && t.fsDev.pending) = true := by decide
theorem test_in_fsseek_low_st1 :
    nextHas (exec .inFsseek fs1234low) (fun t => t.reply == some 0x34 && !t.fsDev.pending) = true := by decide
theorem test_out_fsseek_st2 :
    nextHas (exec (.outFsseek 0xAB) fs1234) (fun t => t.fsDev.cursor == 0xAB00 && t.fsDev.pending) = true := by decide
theorem test_out_fsseek_st5 :
    nextHas (exec (.outFsseek 0x0F) fs1234low) (fun t => t.fsDev.cursor == 0x123F && !t.fsDev.pending) = true := by decide
theorem test_in_inseek : nextHas (exec .inInseek in5low) (fun t => t.reply == some 5 && !t.inDev.pending) = true := by decide
theorem test_out_inseek :
    nextHas (exec (.outInseek 0x02) in5) (fun t => t.inDev.cursor == 0x0200 && t.fsDev == emptyDevice) = true := by decide
theorem test_independent_si1 :
    nextHas (execSeq [.outFsseek 0x56, .inFsseek] (independent fs1234))
      (fun t => t.reply == some 0x56 && t.fsDev.pendingWr && t.fsDev.pendingRd && t.fsDev.cursor == 0x5600) = true := by decide
theorem test_independent_si2 :
    nextHas (execSeq [.inFsseek, .outFsseek 0x0F] (independent fs1234))
      (fun t => t.fsDev.cursor == 0x0F00 && t.fsDev.pendingWr && t.fsDev.pendingRd) = true := by decide
theorem test_debug_trace_st12 :
    nextHas (exec (.outFsseek 0x02) (debug fs1234low)) (fun t => t.diag == [.seekTrace .fs .seek .low 0x02]) = true := by decide

/-! ### Unmapped ports (U2, U5) -/

theorem test_in_unmapped_u2 :
    nextHas (exec (.inUnmapped 4) fs1234low) (fun t => t.reply == some 0 && t.diag == [.unmappedRead 4] && t.fsDev.pending)
      = true := by decide
theorem test_out_unmapped_u5 :
    nextHas (exec (.outUnmapped 0xFF 0x41) State.reset)
      (fun t => t.diag == [.unmappedWrite 0xFF 0x41] && t.console == []) = true := by decide

/-! ### Controller and reset (LR1, LR3, LR6) -/

theorem test_halted_at_reset_lr1 :
    nextHas (stepWith (countingCore 0) State.reset)
      (fun t => t.loop == .halted && t.output == some [] && t.exit == some .success) = true := by decide
theorem test_halt_summary :
    nextHas (stepWith (countingCore 0) (debug State.reset)) (fun t => t.diag == [.haltSummary 0xAA 0x1234]) = true := by decide
theorem test_not_halted_steps :
    nextHas (stepWith (countingCore 1) State.reset) (fun t => t.bus == .inStep && t.loop == .running) = true := by decide
theorem test_console_output :
    nextHas (runWith (oneWordCore 0x3000041) 5 State.reset) (fun t => t.loop == .halted && t.output == some [0x41])
      = true := by decide
theorem test_ended_run_stops :
    stepWith (countingCore 0) { State.reset with loop := .halted } = .fault .runEnded := rfl

/-- LR4: two images, every other byte `MEM_INIT`. -/
theorem test_boot_memory_lr4 :
    (bootMemory { Config.defaultRun with bootImg := [0x3E, 0x00], progImg := [0x76], memInit := fun _ => 0x55 }).read 0x4800
        = 0x76 ∧
      (bootMemory { Config.defaultRun with bootImg := [0x3E, 0x00], progImg := [0x76], memInit := fun _ => 0x55 }).read 1
        = 0x00 ∧
      (bootMemory { Config.defaultRun with bootImg := [0x3E, 0x00], progImg := [0x76], memInit := fun _ => 0x55 }).read 2
        = 0x55 := by
  have h : misfit { Config.defaultRun with bootImg := [0x3E, 0x00], progImg := [0x76], memInit := fun _ => 0x55 } = none := by
    decide
  obtain ⟨-, hr⟩ := bootMemory_spec h
  rw [hr _ (by decide), hr _ (by decide), hr _ (by decide)]
  decide

/-- LR6: a filesystem image of 65536 bytes is refused. -/
theorem test_boot_refuses_lr6 (img : List Byte) (h : img.length = 65536) :
    bootstrap { Config.defaultRun with fsImg := img } = .refused (.imageDoesNotFit .fs) := by
  have hm : misfit { Config.defaultRun with fsImg := img } = some .fs := by
    have h1 : ¬ Config.memSize < Config.defaultRun.bootImg.length := by decide
    have h2 : ¬ Config.memSize - Config.progBase < Config.defaultRun.progImg.length := by decide
    have h3 : Config.fsCap < img.length := by rw [h]; decide
    exact (if_neg h1).trans ((if_neg h2).trans (if_pos h3))
  unfold bootstrap bootstrapFrom
  rw [hm]

/-! ### Witnesses: concrete states and operands that meet the hypotheses of each statement

For a statement with several clauses, one witness for each, at the ends of its range. -/

/-- A configuration whose program image covers 0x4800 and whose boot image covers 0x0000 and 0x0001. -/
def twoImages : RunConfig := { Config.defaultRun with bootImg := [0x3E, 0x00], progImg := [0x76] }

/-- The state in which the word is presented in a running run, after reset. -/
def presentingStdio : State := presenting 0x3000041 State.reset

/-- The state in Halted after a run of the core that halts at once. -/
def haltedState : State :=
  { State.reset with loop := .halted, output := some [], exit := some .success }

theorem witness_decode_of_encode :
    Instr.wf (.inUnmapped 4) = true ∧ Instr.wf (.outUnmapped 255 0xFF) = true ∧ Instr.wf (.memWr 0xFFFF 0xFF) = true := by
  decide

theorem witness_ignored_bits_port :
    TxWord.space 0x2120255 = true ∧ TxWord.space 0x2FF0200 = TxWord.space 0x2120255 ∧
      TxWord.dir 0x2FF0200 = TxWord.dir 0x2120255 ∧ TxWord.dir 0x2120255 = false ∧
      (TxWord.addr 0x2FF0200).toNat % 256 = (TxWord.addr 0x2120255).toNat % 256 := by decide
theorem witness_ignored_bits_memory :
    TxWord.space 0x0480055 = false ∧ TxWord.space 0x0480000 = TxWord.space 0x0480055 ∧
      TxWord.dir 0x0480000 = TxWord.dir 0x0480055 ∧ TxWord.addr 0x0480000 = TxWord.addr 0x0480055 := by decide
theorem witness_ignored_bits_write :
    TxWord.dir 0x3120277 = true ∧ TxWord.dir 0x3000277 = true ∧ TxWord.data 0x3000277 = TxWord.data 0x3120277 := by decide

theorem witness_presented_port :
    decode (inWord 0x10104) = decode (inWord 4) ∧ 4 ≤ 0x10104 % 256 ∧ decode (inWord 0xFF) = decode (inWord 0x1FF) := by
  decide

theorem witness_presented_word : presentingStdio.loop = .running ∧ presentingStdio.bus = .presenting 0x3000041 := by decide

theorem witness_fetch_word :
    decodeTableWord 32 0x200FF00 = some (.inUnmapped 0xFF) ∧ decodeTableWord 32 0 = some (.memRd 0) ∧
      decodeTableWord 32 0x3FFFFFF = some (.outUnmapped 0xFF 0xFF) := by decide

theorem witness_every_transaction_running : State.reset.loop = .running := rfl

theorem witness_only_halt_ends : runWith (countingCore 0) 2 State.reset = .fault .runEnded := rfl

theorem witness_parts : (∀ a d, Instr.inStdio ≠ .memWr a d) ∧ reachesDevice .fs .inStdio = false ∧
    (∀ d, Instr.inStdio ≠ .outStdio d) ∧ (∀ p, Instr.inStdio ≠ .inUnmapped p) ∧
    (∀ p d, Instr.inStdio ≠ .outUnmapped p d) ∧ ∀ id, isTellOf id .inStdio = false ∧ isSeekOf id .inStdio = false := by
  refine ⟨nofun, rfl, nofun, nofun, nofun, fun id => ?_⟩
  cases id <;> decide
theorem witness_parts_debug_off : State.reset.params.debugTrace = false := rfl

theorem witness_spaces : Instr.isPort (.memWr 0xFFFF 1) = false ∧ Instr.isPort .inStdio = true := by decide

theorem witness_repeats_mem_rd : exec (.memRd 0) State.reset = .next { State.reset with reply := some 0 } := rfl
theorem witness_repeats_mem_wr :
    State.reset.mem.wf = true ∧ exec (.memWr 0xFFFF 0x5A) State.reset = .next { State.reset with mem := [(65535, 0x5A)] } :=
  ⟨rfl, rfl⟩
theorem witness_repeats_data_read :
    (inXyEnd.dev .inp).size.toNat ≤ (inXyEnd.dev .inp).cursor.toNat ∧
      exec (dataReadOp .inp) inXyEnd = .next { inXyEnd with reply := some 0 } := ⟨by decide, rfl⟩
theorem witness_repeats_fs_write :
    fsEnd.fsDev.size.toNat ≤ fsEnd.fsDev.cursor.toNat ∧ exec (.outFsdata 1) fsEnd = .next fsEnd :=
  ⟨by decide, rfl⟩
theorem witness_repeats_unmapped_read :
    exec (.inUnmapped 4) State.reset = .next { State.reset with diag := [.unmappedRead 4], reply := some 0 } := rfl
theorem witness_repeats_unmapped_write :
    exec (.outUnmapped 255 1) State.reset = .next { State.reset with diag := [.unmappedWrite 255 1] } := rfl

/-- The default configuration meets every hypothesis that a bootstrap gives a state. -/
theorem witness_bootstrap : bootstrap Config.defaultRun = .next State.reset := bootstrap_default

theorem witness_mem_init :
    Config.defaultRun.bootImg.length ≤ (0 : Addr).toNat ∧ (0 : Addr).toNat < 0x4800 ∧
      0x4800 + Config.defaultRun.progImg.length ≤ (0xFFFF : Addr).toNat := by decide
theorem witness_mem_init_not_stored :
    nextHas (runWith (oneWordCore 0x1FFFF5A) 4 State.reset) (fun t => t.bus == .between) = true ∧
      latestStore 0 (issued (oneWordCore 0x1FFFF5A) 4 State.reset) = none := by decide

theorem witness_mem_write :
    Memory.wf [(0x5800, 0x42)] = true ∧ Memory.read [(0x5800, 0x42)] (0x5800 : Addr).toNat = 0x42 ∧
      (0x5801 : Addr) ≠ 0x5800 := by decide

theorem witness_canonical :
    Memory.wf [(0, 1), (65535, 2)] = true ∧ Memory.wf ((Memory.write [] 65535 2).write 0 1) = true ∧
      (Memory.write [] 65535 2).write 0 1 = [(0, 1), (65535, 2)] := by decide

/-- A run of 4 steps in which one store is issued. -/
theorem witness_sequential :
    State.reset.mem.wf = true ∧ nextHas (runWith (oneWordCore 0x1FFFF5A) 4 State.reset)
      (fun t => t.mem.read 65535 == 0x5A) = true ∧
      issued (oneWordCore 0x1FFFF5A) 4 State.reset = [.memWr 0xFFFF 0x5A] ∧
      latestStore 0xFFFF (issued (oneWordCore 0x1FFFF5A) 4 State.reset) = some 0x5A := by decide

theorem witness_unmapped :
    4 ≤ (0xFF04 : Addr).toNat % 256 ∧ 4 ≤ (0x00FF : Addr).toNat % 256 ∧ (0xFF03 : Addr).toNat % 256 < 4 ∧
      (0x0100 : Addr).toNat % 256 < 4 := by decide

theorem witness_in_stdio :
    inXy.inDev.wf 32768 = true ∧ inXy.inDev.cursor.toNat + 1 = inXy.inDev.size.toNat ∧
      inXyEnd.inDev.wf 32768 = true ∧ inXyEnd.inDev.cursor.toNat = inXyEnd.inDev.size.toNat ∧
      in5.inDev.wf 32768 = true ∧ in5.inDev.size.toNat < in5.inDev.cursor.toNat := by decide
theorem witness_in_fsdata :
    fs8.fsDev.wf 65535 = true ∧ fs8.fsDev.cursor.toNat < fs8.fsDev.size.toNat ∧
      fsEnd.fsDev.wf 65535 = true ∧ fsEnd.fsDev.cursor.toNat = fsEnd.fsDev.size.toNat ∧
      fs1234.fsDev.wf 65535 = true ∧ fs1234.fsDev.size.toNat < fs1234.fsDev.cursor.toNat := by decide

theorem witness_fs_write_read_back :
    fs8.fsDev.wf 65535 = true ∧ (0 : Word16).toNat < fs8.fsDev.size.toNat ∧ (7 : Word16).toNat + 1 = fs8.fsDev.size.toNat ∧
      fs8.fsDev.flag fs8.params.toggleMode .seek = false ∧
      (independent fs8).fsDev.flag (independent fs8).params.toggleMode .seek = false := by decide

theorem witness_overruns :
    faultCategory (.inUnmapped 4) State.reset = some .port ∧ faultCategory (.outUnmapped 255 0) State.reset = some .port ∧
      faultCategory (.outFsdata 1) fsEnd = some .overrunWrite ∧ faultCategory (.outFsdata 1) fs1234 = some .overrunWrite ∧
      faultCategory (.outFsdata 1) fs8 = none := by decide
/-- R107 at the capacity and one byte beyond. -/
theorem witness_overrun_input (inp : List Byte) (h : inp.length = 32769) :
    bootCategory { Config.defaultRun with input := inp } = some .overrunInput ∧
      bootCategory { Config.defaultRun with input := inp.take 32768 } = none := by
  simp [bootCategory, h]
theorem witness_long_input : (List.replicate 32769 (0 : Byte)).length = 32769 := List.length_replicate

/-- Both phases in both modes, for a device of each kind. -/
theorem witness_tell :
    (fs1234.dev .fs).pending = false ∧ (fs1234low.dev .fs).pending = true ∧ (in5low.dev .inp).pending = true ∧
      fs1234.params.toggleMode = .shared ∧ (independent in5).params.toggleMode = .independent ∧
      ((independent in5).dev .inp).pendingRd = false ∧ (debug fs1234).params.debugTrace = true := by decide
theorem witness_tell_independent_low :
    nextHas (exec .inInseek (independent in5)) (fun t => (t.dev .inp).pendingRd && decide (t.params.toggleMode = .independent))
      = true := by decide
theorem witness_seek_low_byte_zero :
    nextHas (exec (.outFsseek 0xAB) fs1234)
      (fun t => (t.dev .fs).pending && decide ((t.dev .fs).cursor.toNat % 256 = 0)) = true := by decide
theorem witness_seek_independent_low :
    nextHas (exec (.outInseek 1) (independent in5)) (fun t => (t.dev .inp).pendingWr) = true := by decide

theorem witness_shared_toggle :
    State.reset.params.toggleMode = .shared ∧ isTellOf .fs .inFsseek = true ∧ isSeekOf .inp (.outInseek 0) = true ∧
      isTellOf .fs .inInseek = false ∧ isSeekOf .fs .inFsdata = false := by decide

/-- Both flags false, in both modes: the round trip, seek then read, and the torn tell. -/
theorem witness_flags_false :
    (fs8.dev .fs).flag fs8.params.toggleMode .tell = false ∧ (fs8.dev .fs).flag fs8.params.toggleMode .seek = false ∧
      ((independent fs8).dev .fs).flag (independent fs8).params.toggleMode .tell = false ∧
      ((independent fs8).dev .fs).flag (independent fs8).params.toggleMode .seek = false ∧
      (fs8.dev .fs).wf (DevId.cap .fs) = true ∧ (inXy.dev .inp).wf (DevId.cap .inp) = true ∧
      (inXy.dev .inp).flag inXy.params.toggleMode .tell = false ∧
      (inXy.dev .inp).flag inXy.params.toggleMode .seek = false := by decide
theorem witness_seek_then_read :
    (7 : Word16).toNat < (fs8.dev .fs).size.toNat ∧ (fs8.dev .fs).size.toNat ≤ (8 : Word16).toNat ∧
      (fs8.dev .fs).size.toNat ≤ (0xFFFF : Word16).toNat := by decide
theorem witness_switching : fs1234.params.toggleMode = .shared ∧ (fs1234.dev .fs).pending = false := by decide
theorem witness_read_between_seeks :
    (0 : Byte).toNat * 256 < (fs8.dev .fs).size.toNat ∧ ¬ (1 : Byte).toNat * 256 < (fs8.dev .fs).size.toNat := by decide
theorem witness_torn_tell : (fs8.dev .fs).cursor.toNat < (fs8.dev .fs).size.toNat := by decide

/-- A run of 4 steps whose one transaction is a seek-port access, in both modes. -/
theorem witness_parities :
    nextHas (runWith (oneWordCore 0x2000300) 4 State.reset) (fun t => (t.dev .fs).pending) = true ∧
      nextHas (runWith (oneWordCore 0x2000300) 4 (independent State.reset))
        (fun t => (t.dev .fs).pendingRd && !(t.dev .fs).pendingWr) = true ∧
      State.reset.params.toggleMode = .shared ∧ (independent State.reset).params.toggleMode = .independent := by decide

/-- A run that overwrites a byte of the filesystem: sizes stay, and the console run of `test_console_output`. -/
theorem witness_sizes :
    nextHas (runWith (oneWordCore 0x3000255) 4 fs8) (fun t => t.fsDev.size == 8 && t.fsDev.buffer != fs8.fsDev.buffer)
      = true := by decide
theorem witness_input : nextHas (runWith (oneWordCore 0x2000000) 4 inXy) (fun t => t.reply == some 0x79 && t.inDev.cursor == 2)
    = true := by decide

/-- Two states that differ in the debug build and in their records, and a run of the first. -/
theorem witness_debug_trace :
    State.reset.eraseDebug = (debug { State.reset with diag := [.haltSummary 1 2] }).eraseDebug ∧
      nextHas (runWith (oneWordCore 0x2000300) 4 State.reset) (fun t => t.diag == []) = true ∧
      nextHas (runWith (oneWordCore 0x2000300) 4 (debug State.reset)) (fun t => t.diag == [.seekTrace .fs .tell .high 0])
        = true := by decide

theorem witness_halt_test :
    State.reset.loop = .running ∧ State.reset.bus = .between ∧ (countingCore 0).halted State.reset.cpu = true ∧
      (countingCore 1).halted State.reset.cpu = false ∧ State.reset.params.outputMode = .console := by decide
theorem witness_halt_test_mem_dump :
    ({ State.reset with params := { State.reset.params with outputMode := .memDump } }).params.outputMode = .memDump := rfl

theorem witness_halted : haltedState.loop = .halted ∧ runWith (countingCore 0) 0 haltedState = .next haltedState :=
  ⟨rfl, rfl⟩

theorem witness_only_the_halt_test :
    stepWith (countingCore 0) State.reset = .next haltedState ∧
      stepWith (countingCore 1) State.reset = .next (State.reset.setBus .inStep) := ⟨rfl, rfl⟩

/-- The echo core's run over one byte of input has ended after 11 steps; with that, `halted` is tested false before each
of two CPU steps and true after them, and every step returns, though the core's codes repeat. -/
theorem echo_run_ended (k : Nat) (h : 12 ≤ k) : runWith echoCore k inXy = .fault .runEnded := by
  have he : runWith echoCore 12 inXy = .fault .runEnded := rfl
  have := runWith_fault_add he (k - 12)
  rwa [Nat.add_sub_cancel' h] at this
theorem witness_halts_after : echoCore.haltsAfter inXy 2 := by
  intro k t h hl hb
  have key : ∀ k < 12, nextHas (runWith echoCore k inXy) (fun t => t.loop == .halted || !(t.bus == .between) ||
      echoCore.halted t.cpu == decide (cpuSteps echoCore k inXy = 2)) = true := by decide
  rcases Nat.lt_or_ge k 12 with hk | hk
  · simpa [nextHas, h, hl, hb] using key k hk
  · rw [echo_run_ended k hk] at h
    cases h
theorem witness_steps_return : echoCore.stepsReturn inXy := by
  intro k t h _
  have key : ∀ k < 12, ∃ m < 6, nextHas (runWith echoCore (k + m) inXy) (fun u => u.bus == .between) = true := by decide
  rcases Nat.lt_or_ge k 12 with hk | hk
  · obtain ⟨m, -, hm⟩ := key k hk
    rw [runWith_add h] at hm
    cases hu : runWith echoCore m t with
    | next u => exact ⟨m, u, hu, by simpa [nextHas, hu] using hm⟩
    | fault r => simp [nextHas, hu] at hm
    | refused r => simp [nextHas, hu] at hm
  · rw [echo_run_ended k hk] at h
    cases h
/-- The runs of these states: after 10 steps Running, after 11 Halted with the byte echoed. -/
theorem witness_scenario_d :
    inXy.loop = .running ∧ inXy.bus = .between ∧
      nextHas (runWith echoCore 10 inXy) (fun t => t.loop == .running) = true ∧
      nextHas (runWith echoCore 11 inXy) (fun t => t.loop == .halted && t.output == some [0x79]) = true ∧
      cpuSteps echoCore 11 inXy = 2 := by decide
/-- N = 0: a core halted at reset (spec D4). -/
theorem witness_halts_at_once : (countingCore 0).haltsAfter State.reset 0 := by
  intro k t h _ _
  match k with
  | 0 => cases h; rfl
  | 1 => cases h; contradiction
  | k + 2 => cases h

/-- A core that counts its steps, and one that stays in its halted state. -/
theorem witness_counts (n : Nat) : (countingCore n).counts (fun k => k) n := by
  refine ⟨?_, ?_, fun _ => rfl⟩
  · intro k r w k' _ h
    simp [countingCore] at h
  · intro k r k' _ h
    simp [countingCore] at h
    exact h.symm
theorem witness_counts_absorbing (w : TxWord) : (oneWordCore w).counts (fun k => k - 1) 1 := by
  refine ⟨?_, ?_, ?_⟩
  · intro k r w' k' _ h
    by_cases hk : k = 0
    · subst hk; cases h; rfl
    · simp [oneWordCore, hk] at h
  · intro k r k' hh h
    have hk : k < 2 := by simpa [oneWordCore] using hh
    by_cases hk0 : k = 0
    · simp [oneWordCore, hk0] at h
    · simp [oneWordCore, hk0] at h
      show k' - 1 = k - 1 + 1
      omega
  · intro k
    show decide (2 ≤ k) = decide (1 ≤ k - 1)
    exact decide_eq_decide.mpr (by omega)
/-- The step count at its ends: at most `n` between CPU steps, below it inside one, `n` in Halted. -/
theorem witness_step_count :
    State.reset.ageWf (fun k => k) 0 = true ∧ (State.reset.setBus .inStep).ageWf (fun k => k) 1 = true ∧
      (State.reset.setBus .inStep).ageWf (fun k => k) 0 = false ∧
      presentingStdio.ageWf (fun k => k - 1) 1 = true ∧
      nextHas (stepWith (countingCore 0) State.reset) (fun t => t.loop == .halted && t.ageWf (fun k => k) 0) = true := by
  decide

/-- A run of the echo core up to its second CPU step: its two transactions, in order. -/
theorem witness_transactions_in_order :
    nextHas (runWith echoCore 6 inXy) (fun t => t.loop == .running && t.console == [0x79]) = true ∧
      issued echoCore 6 inXy = [.inStdio, .outStdio 0x79] := by decide

/-- A run that stores in FS at the cursor 4; no store meets index 5. -/
theorem witness_fs_content :
    fs8.fsDev.wf 65535 = true ∧
      nextHas (runWith (oneWordCore 0x3000255) 4 fs8) (fun t => decide (t.fsDev.cursor.toNat < fs8.fsDev.size.toNat) &&
        t.fsDev.buffer[4]? == some 0x55) = true ∧
      latestFsStore 4 (applied (oneWordCore 0x3000255) 4 fs8) = some 0x55 ∧
      latestFsStore 5 (applied (oneWordCore 0x3000255) 4 fs8) = none := by decide
/-- A write past `size` stores nothing. -/
theorem witness_fs_content_end :
    latestFsStore 8 (applied (oneWordCore 0x3000255) 4 fsEnd) = none := by decide

/-- The byte 0xAA written at 4; then a run that writes at 5; the seek flag is false at its end. -/
theorem witness_fs_write_later :
    (4 : Word16).toNat < fs8.fsDev.size.toNat ∧ fs8.fsDev.cursor = 4 ∧
      nextHas (exec (.outFsdata 0xAA) fs8) (fun t =>
        nextHas (runWith (oneWordCore 0x3000255) 4 t) (fun u =>
          u.fsDev.buffer[5]? == some 0x55 && !u.fsDev.flag u.params.toggleMode .seek) &&
        latestFsStore 4 (applied (oneWordCore 0x3000255) 4 t) == none) = true := by decide

/-- The other accesses between halves: the cursor 0 inside, 0x100 outside the content of 8 bytes, in both modes. -/
theorem witness_other_accesses :
    fs8.fsDev.wf 65535 = true ∧ fs8.fsDev.flag fs8.params.toggleMode .seek = false ∧
      (independent fs8).fsDev.flag (independent fs8).params.toggleMode .seek = false ∧
      (0 : Byte).toNat * 256 < fs8.fsDev.size.toNat ∧ fs8.fsDev.size.toNat ≤ (1 : Byte).toNat * 256 ∧
      reachesDevice .fs .inStdio = false ∧ reachesDevice .inp (.outStdio 1) = false := by decide
theorem witness_write_between_tells :
    fs8.fsDev.flag fs8.params.toggleMode .tell = false ∧ fs8.fsDev.cursor.toNat < fs8.fsDev.size.toNat ∧
      fsEnd.fsDev.flag fsEnd.params.toggleMode .tell = false ∧ fsEnd.fsDev.size.toNat ≤ fsEnd.fsDev.cursor.toNat := by decide

/-- The host may hold the first byte of two; the run then halts. -/
theorem witness_host_prefix :
    ({ State.reset with console := [1, 2] }).output = none ∧
      ({ State.reset with console := [1, 2] }).hostMayHold [1] = true ∧
      ({ State.reset with console := [1, 2] }).hostMayHold [2] = false ∧
      nextHas (runWith (countingCore 0) 1 { State.reset with console := [1, 2] }) (fun t => t.output == some [1, 2]) = true := by
  decide

theorem witness_devices_after_reset :
    twoImages.bootImg.length ≤ 65536 ∧ twoImages.progImg.length ≤ 47104 ∧ twoImages.fsImg.length ≤ 65535 := by decide
/-- The three images at their largest. -/
theorem witness_largest_images :
    (List.replicate 65536 (0 : Byte)).length = 65536 ∧ (List.replicate 47104 (0 : Byte)).length = 47104 ∧
      (List.replicate 65535 (0 : Byte)).length = 65535 :=
  ⟨List.length_replicate, List.length_replicate, List.length_replicate⟩
theorem witness_memory_after_reset :
    (∃ t, bootstrapFrom State.reset twoImages = .next t) ∧
      0x4800 ≤ (0x4800 : Addr).toNat ∧ (0x4800 : Addr).toNat < 0x4800 + twoImages.progImg.length ∧
      (1 : Addr).toNat < twoImages.bootImg.length ∧ twoImages.bootImg.length ≤ (2 : Addr).toNat ∧
      0x4800 + twoImages.progImg.length ≤ (0x4801 : Addr).toNat :=
  ⟨⟨_, rfl⟩, by decide, by decide, by decide, by decide, by decide⟩

/-- States with the invariant: running with content and a record, and halted. -/
theorem witness_inv :
    State.reset.inv = true ∧ fs8.inv = true ∧ (independent fs8).inv = true ∧ presentingStdio.inv = true ∧
      (debug { fs8 with diag := [.unmappedRead 4, .seekTrace .fs .tell .high 0] }).inv = true ∧ haltedState.inv = true := by
  decide
theorem witness_inv_refuses :
    ({ State.reset with diag := [.unmappedRead 3] }).inv = false ∧ ({ State.reset with loop := .halted }).inv = false ∧
      ({ State.reset with mem := [(5, 0)] }).inv = false ∧
      (withDevices emptyDevice { emptyDevice with size := 1 }).inv = false := by decide
theorem witness_inv_step : nextHas (stepWith (countingCore 1) State.reset) (fun t => t.inv) = true := by decide

end Tests
end Machine
end Sys2Proof
end

section
/-! SUPPORT. What one transaction does to the device sizes, to the console and to the controller, and one step with the
event it is: the facts that statements over runs are assembled from. -/

namespace Sys2Proof
namespace Machine

/-! ### The unmapped ports, the halt, and the core's move, part by part -/

@[simp] theorem unmappedRead_console (port : Port) (s : State) : (unmappedRead port s).console = s.console := rfl
@[simp] theorem unmappedRead_loop (port : Port) (s : State) : (unmappedRead port s).loop = s.loop := rfl
@[simp] theorem unmappedRead_dev (port : Port) (s : State) (id : DevId) : (unmappedRead port s).dev id = s.dev id := by
  simp [unmappedRead]
@[simp] theorem unmappedWrite_console (port : Port) (d : Byte) (s : State) :
    (unmappedWrite port d s).console = s.console := rfl
@[simp] theorem unmappedWrite_loop (port : Port) (d : Byte) (s : State) : (unmappedWrite port d s).loop = s.loop := rfl
@[simp] theorem unmappedWrite_dev (port : Port) (d : Byte) (s : State) (id : DevId) :
    (unmappedWrite port d s).dev id = s.dev id := by
  simp [unmappedWrite]
@[simp] theorem haltActions_dev (c : CpuCore) (s : State) (id : DevId) : (haltActions c s).dev id = s.dev id := by
  cases id <;> simp
@[simp] theorem coreMove_dev (c : CpuCore) (s : State) (id : DevId) : (coreMove c s).dev id = s.dev id := by
  cases id <;> simp
@[simp] theorem beginCpuStep_dev (s : State) (id : DevId) : (beginCpuStep s).dev id = s.dev id := by
  cases id <;> simp

/-! ### One transaction -/

/-- No transaction moves the controller (R23). -/
@[simp] theorem execNext_loop (i : Instr) (s : State) : (execNext i s).loop = s.loop := by
  cases i <;> simp [execNext]

/-- OUT_STDIO appends its byte to the console, every other transaction leaves the console (R21). -/
theorem execNext_console (i : Instr) (s : State) :
    (execNext i s).console = s.console ++ (consoleByte i).toList := by
  cases i <;> simp [execNext, consoleByte]

/-- The size of a device and the length of its buffer do not differ (R17). -/
def Device.sameSize (d e : Device) : Prop := e.size = d.size ∧ e.buffer.length = d.buffer.length

theorem Device.sameSize_refl (d : Device) : d.sameSize d := ⟨rfl, rfl⟩

theorem Device.sameSize_trans {d e f : Device} (hde : d.sameSize e) (hef : e.sameSize f) : d.sameSize f :=
  ⟨hef.1.trans hde.1, hef.2.trans hde.2⟩

theorem Device.sameSize_afterRead (d : Device) : d.sameSize d.afterRead := by
  simp [Device.sameSize]

/-- A write overwrites a byte of the buffer or is dropped (R65). -/
theorem Device.sameSize_afterWrite (v : Byte) (d : Device) : d.sameSize (d.afterWrite v) := by
  refine ⟨Device.afterWrite_size v d, ?_⟩
  unfold Device.afterWrite
  split <;> simp

theorem Device.sameSize_afterTell (m : ToggleMode) (d : Device) : d.sameSize (d.afterTell m) := by
  simp [Device.sameSize]

theorem Device.sameSize_afterSeek (m : ToggleMode) (v : Byte) (d : Device) : d.sameSize (d.afterSeek m v) := by
  simp [Device.sameSize]

/-- Both devices have the same sizes in the two states. -/
def State.sameSizes (s t : State) : Prop := ∀ id, (s.dev id).sameSize (t.dev id)

theorem State.sameSizes_of_dev_eq {s t : State} (h : ∀ id, t.dev id = s.dev id) : s.sameSizes t :=
  fun id => h id ▸ Device.sameSize_refl _

theorem State.sameSizes_trans {s t u : State} (hst : s.sameSizes t) (htu : t.sameSizes u) : s.sameSizes u :=
  fun id => Device.sameSize_trans (hst id) (htu id)

/-- An update of one device that keeps its size, with the other device left alone, keeps both sizes. -/
theorem State.sameSizes_of_dev {s t : State} (id : DevId) (hd : (s.dev id).sameSize (t.dev id))
    (hne : ∀ id', id' ≠ id → t.dev id' = s.dev id') : s.sameSizes t := by
  intro id'
  by_cases h : id' = id
  · exact h ▸ hd
  · exact hne id' h ▸ Device.sameSize_refl _

theorem sameSizes_readDataPort (id : DevId) (s : State) : s.sameSizes (readDataPort id s) :=
  State.sameSizes_of_dev id (by simpa using Device.sameSize_afterRead _) fun _ => readDataPort_dev_of_ne s

theorem sameSizes_writeDataPort (id : DevId) (d : Byte) (s : State) : s.sameSizes (writeDataPort id d s) :=
  State.sameSizes_of_dev id (by simpa using Device.sameSize_afterWrite d _) fun _ => writeDataPort_dev_of_ne d s

theorem sameSizes_tellPort (id : DevId) (s : State) : s.sameSizes (tellPort id s) :=
  State.sameSizes_of_dev id (by simpa using Device.sameSize_afterTell _ _) fun _ => tellPort_dev_of_ne s

theorem sameSizes_seekPort (id : DevId) (d : Byte) (s : State) : s.sameSizes (seekPort id d s) :=
  State.sameSizes_of_dev id (by simpa using Device.sameSize_afterSeek _ d _) fun _ => seekPort_dev_of_ne d s

/-- No transaction changes a device's size (R17). -/
theorem execNext_sameSizes (i : Instr) (s : State) : s.sameSizes (execNext i s) := by
  cases i with
  | memRd a => exact State.sameSizes_of_dev_eq fun id => by simp [execNext]
  | memWr a d => exact State.sameSizes_of_dev_eq fun id => by simp [execNext]
  | inStdio => exact sameSizes_readDataPort .inp s
  | inInseek => exact sameSizes_tellPort .inp s
  | inFsdata => exact sameSizes_readDataPort .fs s
  | inFsseek => exact sameSizes_tellPort .fs s
  | inUnmapped port => exact State.sameSizes_of_dev_eq (unmappedRead_dev port s)
  | outStdio d => exact State.sameSizes_of_dev_eq fun id => by simp [execNext]
  | outInseek d => exact sameSizes_seekPort .inp d s
  | outFsdata d => exact sameSizes_writeDataPort .fs d s
  | outFsseek d => exact sameSizes_seekPort .fs d s
  | outUnmapped port d => exact State.sameSizes_of_dev_eq (unmappedWrite_dev port d s)

/-! ### One step and its event -/

/-- What one step can do, with the event it is and the next state of its transaction. -/
theorem stepWith_event_cases {c : CpuCore} {s t : State} (h : stepWith c s = .next t) :
    (eventOf c s = some .halt ∧ t = haltActions c s) ∨
      (eventOf c s = some .cpuStep ∧ t = beginCpuStep s) ∨
      (eventOf c s = some .coreMove ∧ t = coreMove c s) ∨
      ∃ i, eventOf c s = some (.transaction i) ∧ t = execNext i (s.setBus .inStep) := by
  obtain ⟨hl, ⟨hb, hh, ht⟩ | ⟨hb, hh, ht⟩ | ⟨hb, ht⟩ | ⟨w, hb, hw⟩⟩ := stepWith_cases h
  · exact .inl ⟨by simp [eventOf, hl, hb, hh], ht⟩
  · exact .inr (.inl ⟨by simp [eventOf, hl, hb, hh], ht⟩)
  · exact .inr (.inr (.inl ⟨by simp [eventOf, hl, hb], ht⟩))
  · exact .inr (.inr (.inr ⟨decode w, by simp [eventOf, hl, hb], exec_next_iff.1 hw⟩))

/-- The transaction the next step applies, if it applies one. -/
def stepTransactions (c : CpuCore) (s : State) : List Instr := transactionsOf (eventOf c s).toList

theorem transactionsOf_append (es fs : List Event) :
    transactionsOf (es ++ fs) = transactionsOf es ++ transactionsOf fs := by
  induction es with
  | nil => rfl
  | cons e es ih => cases e <;> simp [transactionsOf, ih]

theorem issued_zero (c : CpuCore) (s : State) : issued c 0 s = [] := rfl

/-- The transactions of a run are those of its first step and then those of the rest (R39). -/
theorem issued_succ {c : CpuCore} {s u : State} (h : stepWith c s = .next u) (n : Nat) :
    issued c (n + 1) s = stepTransactions c s ++ issued c n u := by
  simp [issued, eventsWith, stepTransactions, transactionsOf_append, h]

/-- No step changes a device's size (R17). -/
theorem stepWith_sameSizes {c : CpuCore} {s t : State} (h : stepWith c s = .next t) : s.sameSizes t := by
  obtain ⟨-, rfl⟩ | ⟨-, rfl⟩ | ⟨-, rfl⟩ | ⟨i, -, rfl⟩ := stepWith_event_cases h
  · exact State.sameSizes_of_dev_eq (haltActions_dev c s)
  · exact State.sameSizes_of_dev_eq (beginCpuStep_dev s)
  · exact State.sameSizes_of_dev_eq (coreMove_dev c s)
  · exact State.sameSizes_trans (State.sameSizes_of_dev_eq (State.setBus_dev s .inStep)) (execNext_sameSizes i _)

/-- One step appends to the console exactly the byte of its own OUT_STDIO, if it is one (R21). -/
theorem stepWith_console {c : CpuCore} {s t : State} (h : stepWith c s = .next t) :
    t.console = s.console ++ (stepTransactions c s).filterMap consoleByte := by
  obtain ⟨he, rfl⟩ | ⟨he, rfl⟩ | ⟨he, rfl⟩ | ⟨i, he, rfl⟩ := stepWith_event_cases h
  · simp [stepTransactions, he, transactionsOf]
  · simp [stepTransactions, he, transactionsOf]
  · simp [stepTransactions, he, transactionsOf]
  · rw [execNext_console]
    cases hi : consoleByte i <;> simp [stepTransactions, he, transactionsOf, hi]

/-! ### The bootstrap -/

/-- The bootstrap answers a next state exactly when every image fits, and then it is the one that the reset steps 1 to 6
give in order (R103, R110). -/
theorem bootstrapFrom_next_iff {s₀ s : State} {cfg : RunConfig} :
    bootstrapFrom s₀ cfg = .next s ↔
      misfit cfg = none ∧ s = bootStart cfg (bootFlags (bootInput cfg (bootFs cfg (bootMem cfg s₀)))) := by
  unfold bootstrapFrom
  cases misfit cfg <;> simp [eq_comm]

@[simp] theorem bootStart_console (cfg : RunConfig) (s : State) : (bootStart cfg s).console = [] := rfl
@[simp] theorem bootStart_loop (cfg : RunConfig) (s : State) : (bootStart cfg s).loop = .running := rfl

end Machine
end Sys2Proof
end

section
/-! SUPPORT. The statements on the block's state (spec/10_state.md R17, R21, R23). -/

namespace Sys2Proof
namespace Machine

/-- Settles O35: every step keeps the sizes, so every run does. -/
theorem sizesNeverChange : Obligations.SizesNeverChange := by
  intro c n s t id h
  have hkeeps : ∀ u v, s.sameSizes u → stepWith c u = .next v → s.sameSizes v :=
    fun _ _ hu hv => State.sameSizes_trans hu (stepWith_sameSizes hv)
  exact runWith_keeps hkeeps (State.sameSizes_of_dev_eq fun _ => rfl) h id

/-- The console after a run is the console before it and the run's OUT_STDIO bytes (R21). -/
theorem runWith_console {c : CpuCore} {n : Nat} {s t : State} (h : runWith c n s = .next t) :
    t.console = s.console ++ (issued c n s).filterMap consoleByte := by
  induction n generalizing s with
  | zero =>
    simp only [runWith, Host.Outcome.next.injEq] at h
    simp [issued_zero, h]
  | succ n ih =>
    obtain ⟨u, hu, hr⟩ := runWith_succ h
    rw [ih hr, stepWith_console hu, issued_succ hu, List.filterMap_append, List.append_assoc]

/-- Settles O37: the bootstrap ends with an empty console, and each step appends its own transaction's byte. -/
theorem consoleIsTheStdioWritesInOrder : Obligations.ConsoleIsTheStdioWritesInOrder := by
  refine ⟨fun cfg s h => ?_, fun c n s t => runWith_console⟩
  obtain ⟨-, rfl⟩ := bootstrapFrom_next_iff.1 h
  exact bootStart_console cfg _

/-- Where a step leaves the controller: of the four things a step can do, only the halt moves it (R23, R85). -/
theorem stepWith_halted_iff {c : CpuCore} {s t : State} (h : stepWith c s = .next t) :
    t.loop = .halted ↔ s.bus = .between ∧ c.halted s.cpu = true := by
  obtain ⟨hl, ⟨hb, hh, rfl⟩ | ⟨hb, hh, rfl⟩ | ⟨hb, rfl⟩ | ⟨w, hb, hw⟩⟩ := stepWith_cases h
  · simp [hb, hh]
  · simp [hl, hh]
  · simp [hl, hb]
  · rw [exec_next_iff.1 hw]
    simp [hl, hb]

/-- Settles O41: the bootstrap ends in Running, every step starts there, and only the halt leaves it. -/
theorem onlyTheHaltTestHalts : Obligations.OnlyTheHaltTestHalts := by
  refine ⟨fun cfg s h => ?_, fun c s t h => ⟨(stepWith_cases h).1, stepWith_halted_iff h⟩, fun c s t hl h => ?_⟩
  · obtain ⟨-, rfl⟩ := bootstrapFrom_next_iff.1 h
    exact bootStart_loop cfg _
  · obtain ⟨hrunning, -⟩ := stepWith_cases h
    simp [hl] at hrunning

end Machine
end Sys2Proof
end

section
/-! SUPPORT. The statements on the address spaces (spec/20_memory.md R34). -/

namespace Sys2Proof

/-- The memory transactions are MEM_RD and MEM_WR (R46). -/
theorem Instr.isPort_eq_false_iff {i : Instr} :
    i.isPort = false ↔ (∃ a, i = .memRd a) ∨ ∃ a d, i = .memWr a d := by
  cases i <;> simp [Instr.isPort]

namespace Machine

@[simp] theorem unmappedRead_mem (port : Port) (s : State) : (unmappedRead port s).mem = s.mem := rfl
@[simp] theorem unmappedWrite_mem (port : Port) (d : Byte) (s : State) : (unmappedWrite port d s).mem = s.mem := rfl

/-- MEM_WR is the only transaction that changes memory (R20). -/
theorem execNext_mem {i : Instr} (h : ∀ a d, i ≠ .memWr a d) (s : State) : (execNext i s).mem = s.mem := by
  cases i with
  | memWr a d => exact absurd rfl (h a d)
  | _ => simp [execNext]

/-- A memory transaction reaches no device (R34). -/
theorem execNext_sameDevices {i : Instr} (h : i.isPort = false) (s : State) : sameDevices s (execNext i s) := by
  obtain ⟨a, rfl⟩ | ⟨a, d, rfl⟩ := Instr.isPort_eq_false_iff.1 h
  · simp [sameDevices, execNext]
  · simp [sameDevices, execNext]

/-- A memory transaction reaches no log (R32, R58). -/
theorem execNext_sameLogs {i : Instr} (h : i.isPort = false) (s : State) : sameLogs s (execNext i s) := by
  obtain ⟨a, rfl⟩ | ⟨a, d, rfl⟩ := Instr.isPort_eq_false_iff.1 h
  · simp [sameLogs, execNext]
  · simp [sameLogs, execNext]

/-- Settles O12: a memory transaction is MEM_RD or MEM_WR, which leave the devices and the logs; only MEM_WR, no port
transaction, changes memory. -/
theorem spacesAreDisjoint : Obligations.SpacesAreDisjoint := by
  intro i s
  refine ⟨execNext i s, exec_eq i s, fun h => ⟨execNext_sameDevices h s, execNext_sameLogs h s⟩, fun h => ?_⟩
  exact execNext_mem (fun a d hi => by simp [hi, Instr.isPort] at h) s

end Machine
end Sys2Proof
end

section
/-! SUPPORT. The statements on the memory transactions (spec/40_memory_ops.md R57, R58). -/

namespace Sys2Proof
namespace Machine

/-! ### What the stores of a run leave in memory -/

/-- Writing back the byte an address holds changes nothing, in a canonical memory: an address that is not listed holds
the byte no entry lists. -/
theorem Memory.write_read_self {m : Memory} {lo : Nat} (h : m.wfFrom lo = true) (a : Nat) :
    m.write a (m.read a) = m := by
  induction m generalizing lo with
  | nil => rfl
  | cons x rest ih =>
    obtain ⟨b, w⟩ := x
    simp only [Memory.wfFrom, Bool.and_eq_true, decide_eq_true_eq] at h
    obtain ⟨⟨-, hw⟩, hrest⟩ := h
    obtain hlt | rfl | hgt := Nat.lt_trichotomy a b
    · have hread : Memory.read rest a = Config.unlistedByte := Memory.read_of_lt hrest (by omega)
      simp [Memory.write, Memory.read, hlt, hlt.ne, hread]
    · simp [Memory.write, Memory.read, hw]
    · simp [Memory.write, Memory.read, hgt.ne', hgt.not_gt, ih hrest]

/-- The latest store of two lists in a row is the second list's, or else the first's (R39). -/
theorem latestStore_append (a : Addr) (is js : List Instr) :
    latestStore a (is ++ js) = (latestStore a js).or (latestStore a is) := by
  simp [latestStore, List.getLast?_append]

/-- A transaction keeps the canonical form: only MEM_WR changes memory, inside the address space. -/
theorem execNext_mem_wf {s : State} (h : s.mem.wf = true) (i : Instr) : (execNext i s).mem.wf = true := by
  cases i with
  | memWr a d => exact Memory.wf_write h (addr_toNat_lt a) d
  | _ => simpa [execNext] using h

/-- After a transaction an address reads as the byte the transaction stores there, or else as before (R57, R58). -/
theorem execNext_mem_read {s : State} (h : s.mem.wf = true) (i : Instr) (a : Addr) :
    (execNext i s).mem.read a.toNat = (storesAt a i).getD (s.mem.read a.toNat) := by
  cases i with
  | memWr b d =>
    simp only [execNext, State.answer_mem, State.setMem_mem, Memory.read_write h]
    by_cases hab : b = a
    · simp [storesAt, hab]
    · have hne : a.toNat ≠ b.toNat := fun he => hab (BitVec.eq_of_toNat_eq he.symm)
      simp [storesAt, hab, hne]
  | _ => simp [execNext, storesAt]

/-- A step keeps the canonical form, and an address reads after it as its own transaction's store, or else as before. -/
theorem stepWith_mem {c : CpuCore} {s t : State} (hs : s.mem.wf = true) (h : stepWith c s = .next t) :
    t.mem.wf = true ∧
      ∀ a : Addr, t.mem.read a.toNat = (latestStore a (stepTransactions c s)).getD (s.mem.read a.toNat) := by
  obtain ⟨he, rfl⟩ | ⟨he, rfl⟩ | ⟨he, rfl⟩ | ⟨i, he, rfl⟩ := stepWith_event_cases h
  · simp [stepTransactions, he, transactionsOf, latestStore, hs]
  · simp [stepTransactions, he, transactionsOf, latestStore, hs]
  · simp [stepTransactions, he, transactionsOf, latestStore, hs]
  · have hb : (s.setBus .inStep).mem.wf = true := hs
    refine ⟨execNext_mem_wf hb i, fun a => ?_⟩
    rw [execNext_mem_read hb]
    cases hi : storesAt a i <;> simp [stepTransactions, he, transactionsOf, latestStore, hi]

/-- After a run an address reads as the latest store to it among the transactions issued, or else as at the start. -/
theorem runWith_mem_read {c : CpuCore} {n : Nat} {s t : State} (hs : s.mem.wf = true) (h : runWith c n s = .next t)
    (a : Addr) : t.mem.read a.toNat = (latestStore a (issued c n s)).getD (s.mem.read a.toNat) := by
  induction n generalizing s with
  | zero =>
    simp only [runWith, Host.Outcome.next.injEq] at h
    simp [issued_zero, latestStore, h]
  | succ n ih =>
    obtain ⟨u, hu, hr⟩ := runWith_succ h
    obtain ⟨hwf, hread⟩ := stepWith_mem hs hu
    rw [ih hwf hr, hread, issued_succ hu, latestStore_append]
    cases latestStore a (issued c n u) <;> simp

/-! ### The bootstrap -/

/-- The bootstrap ends with the memory of reset steps 1 and 2: the later reset steps leave it. -/
theorem bootstrapFrom_mem {s₀ s : State} {cfg : RunConfig} (h : bootstrapFrom s₀ cfg = .next s) :
    s.mem = bootMemory cfg := by
  obtain ⟨-, rfl⟩ := bootstrapFrom_next_iff.1 h
  simp [bootStart, bootFlags, bootInput, bootFs, bootMem]

/-- After the bootstrap a byte no image covers reads as `MEM_INIT` of it (R104, R105). -/
theorem bootMemory_read_uncovered {cfg : RunConfig} (h : misfit cfg = none) {a : Addr}
    (hboot : cfg.bootImg.length ≤ a.toNat) (hprog : a.toNat < 0x4800 ∨ 0x4800 + cfg.progImg.length ≤ a.toNat) :
    (bootMemory cfg).read a.toNat = cfg.memInit a := by
  obtain ⟨-, hread⟩ := bootMemory_spec h
  rw [hread a.toNat (addr_toNat_lt a), if_neg (by omega), if_neg (by omega), BitVec.ofNat_toNat, BitVec.setWidth_eq]

/-! ### The statements -/

/-- Settles O14: the run's stores decide what an address reads as; with none it reads as after the bootstrap, and there
no image covers it. -/
theorem memReadReturnsTheByte : Obligations.MemReadReturnsTheByte := by
  refine ⟨fun a s => exec_eq (.memRd a) s, fun c n cfg s t a hboot hb hp hrun hstore => ?_⟩
  have hmem : s.mem = bootMemory cfg := bootstrapFrom_mem hboot
  obtain ⟨hfit, -⟩ := bootstrapFrom_next_iff.1 hboot
  obtain ⟨hwf, -⟩ := bootMemory_spec hfit
  have hread : t.mem.read a.toNat = cfg.memInit a := by
    rw [runWith_mem_read (hmem ▸ hwf) hrun, hstore, Option.getD_none, hmem, bootMemory_read_uncovered hfit hb hp]
  rw [← hread]
  exact exec_eq (.memRd a) t

/-- Settles O15: the write is read back, leaves every other address and, where the byte was held, the whole memory;
a memory transaction reaches no device and no log. -/
theorem memWriteStoresOneByte : Obligations.MemWriteStoresOneByte := by
  intro a d s h
  refine ⟨execNext (.memWr a d) s, exec_eq _ s, Memory.read_write_same h a.toNat d, fun b hb => ?_, ?_, rfl,
    execNext_sameDevices rfl s, execNext_sameLogs rfl s, ?_⟩
  · exact Memory.read_write_of_ne s.mem d fun he => hb (BitVec.eq_of_toNat_eq he)
  · rintro rfl
    exact Memory.write_read_self h a.toNat
  · simp [sameControl, execNext]

end Machine
end Sys2Proof
end

section
/-! SUPPORT. The statements on the port dispatch (spec/41_port_dispatch.md R59–R61, R63). -/

namespace Sys2Proof

/-! ### What a port word decodes to -/

/-- A port read is decoded by its effective port alone, whatever the ignored `D` (R49, R51). -/
theorem decode_assemble_portRead (a : PresentedPort) (d : Byte) :
    decode (TxWord.assemble true false a d) = decodePortRead (maskPort a) := by
  simp [decode]

/-- A port write is decoded by its effective port and its byte (R51). -/
theorem decode_assemble_portWrite (a : PresentedPort) (d : Byte) :
    decode (TxWord.assemble true true a d) = decodePortWrite (maskPort a) d := by
  simp [decode]

/-- A presented value is unmapped exactly when its low byte is 4 or more (R52). -/
theorem unmapped_maskPort_iff (a : PresentedPort) :
    Config.firstUnmappedPort ≤ maskPort a ↔ 4 ≤ a.toNat % 256 := by
  rw [BitVec.le_def, maskPort_toNat]
  rfl

/-- A port read that decodes to IN_UNMAPPED has matched none of the four mapped ports (R51, R52). -/
theorem unmapped_of_decodePortRead {p q : Port} (h : decodePortRead p = .inUnmapped q) :
    Config.firstUnmappedPort ≤ p := by
  unfold decodePortRead at h
  split_ifs at h with h0 h1 h2 h3
  exact (unmapped_iff p).2 ⟨h0, h1, h2, h3⟩

/-- A port write that decodes to OUT_UNMAPPED has matched none of the four mapped ports (R51, R52). -/
theorem unmapped_of_decodePortWrite {p q : Port} {d v : Byte} (h : decodePortWrite p d = .outUnmapped q v) :
    Config.firstUnmappedPort ≤ p := by
  unfold decodePortWrite at h
  split_ifs at h with h0 h1 h2 h3
  exact (unmapped_iff p).2 ⟨h0, h1, h2, h3⟩

namespace Machine

/-! ### The decoded operation and the dispatcher -/

/-- The decoded read of a presented value leads to the state that `PortRead` gives: both choose by the effective port
(R59). -/
theorem execNext_decodePortRead (a : PresentedPort) (s : State) :
    execNext (decodePortRead (maskPort a)) s = portRead a s := by
  unfold decodePortRead portRead
  split_ifs <;> rfl

/-- The decoded write to a presented value leads to the state that `PortWrite` gives (R59). -/
theorem execNext_decodePortWrite (a : PresentedPort) (d : Byte) (s : State) :
    execNext (decodePortWrite (maskPort a) d) s = portWrite a d s := by
  unfold decodePortWrite portWrite
  split_ifs <;> rfl

/-! ### What a completed transaction leaves -/

/-- A read returns a byte to the core, a write returns none (R46, R63). -/
theorem execNext_reply_isSome (i : Instr) (s : State) : (execNext i s).reply.isSome = !i.isWrite := by
  cases i <;> simp [execNext, Instr.isWrite, unmappedRead, unmappedWrite]

/-- A transaction moves neither the controller nor the core, and flushes nothing (R20, R63). -/
theorem execNext_sameControl (i : Instr) (s : State) : sameControl s (execNext i s) := by
  cases i <;> simp [sameControl, execNext, unmappedRead, unmappedWrite]

/-- The step at a presented word completes the decoded transaction, the core to move next (R63, R83). -/
theorem stepWith_presenting {c : CpuCore} {s : State} {w : TxWord} (hl : s.loop = .running)
    (hb : s.bus = .presenting w) : stepWith c s = .next (execNext (decode w) (s.setBus .inStep)) := by
  simp [stepWith, hl, hb, applyWord, exec_eq]

/-- No step of a running run stops it (R63): each phase of the interface to the core answers a next state. -/
theorem stepWith_running_next (c : CpuCore) {s : State} (hl : s.loop = .running) : ∃ t, stepWith c s = .next t := by
  cases hb : s.bus with
  | between =>
    cases hh : c.halted s.cpu with
    | true => exact ⟨haltActions c s, by simp [stepWith, hl, hb, hh]⟩
    | false => exact ⟨beginCpuStep s, by simp [stepWith, hl, hb, hh]⟩
  | inStep => exact ⟨coreMove c s, by simp [stepWith, hl, hb]⟩
  | presenting w => exact ⟨_, stepWith_presenting hl hb⟩

/-! ### The statements -/

/-- Settles O9: every transaction has a next state, which keeps the controller and the interface to the core, so the
core moves next; a running run's other steps have a next state too. -/
theorem everyTransactionCompletes : Obligations.EveryTransactionCompletes := by
  refine ⟨fun i s => ⟨execNext i s, exec_eq i s, execNext_reply_isSome i s, execNext_sameControl i s⟩,
    fun c s w hl hb => ⟨_, stepWith_presenting hl hb, ?_, ?_⟩, fun c s => stepWith_running_next c⟩
  · obtain ⟨-, -, -, hbus, -⟩ := execNext_sameControl (decode w) (s.setBus .inStep)
    exact hbus
  · rw [execNext_loop, State.setBus_loop, hl]

/-- Settles O18: decoder and dispatcher choose by the same masked port. -/
theorem dispatcherAgreesWithDecoder : Obligations.DispatcherAgreesWithDecoder := by
  refine fun a d s => ⟨?_, ?_⟩
  · rw [exec_eq, decode_assemble_portRead, execNext_decodePortRead]
  · rw [exec_eq, decode_assemble_portWrite, execNext_decodePortWrite]

/-- Settles O19: the low byte of the presented value decides whether the read is unmapped, and an unmapped read only
records and answers 0. -/
theorem unmappedReadReturnsZero : Obligations.UnmappedReadReturnsZero := by
  refine ⟨fun a d ha => ?_, fun a d ha p hp => ?_, fun p s => exec_eq (.inUnmapped p) s⟩
  · rw [decode_assemble_portRead, ← maskPort_eq]
    exact decodePortRead_unmapped ((unmapped_maskPort_iff a).2 ha)
  · rw [decode_assemble_portRead] at hp
    have hle : 4 ≤ a.toNat % 256 := (unmapped_maskPort_iff a).1 (unmapped_of_decodePortRead hp)
    omega

/-- Settles O20: the low byte of the presented value decides whether the write is unmapped, and an unmapped write only
records. -/
theorem unmappedWriteOnlyRecords : Obligations.UnmappedWriteOnlyRecords := by
  refine ⟨fun a d ha => ?_, fun a d ha p v hp => ?_, fun p d s => exec_eq (.outUnmapped p d) s⟩
  · rw [decode_assemble_portWrite, ← maskPort_eq]
    exact decodePortWrite_unmapped ((unmapped_maskPort_iff a).2 ha) d
  · rw [decode_assemble_portWrite] at hp
    have hle : 4 ≤ a.toNat % 256 := (unmapped_maskPort_iff a).1 (unmapped_of_decodePortWrite hp)
    omega

end Machine
end Sys2Proof
end

section
/-! SUPPORT. The statements on the data ports (spec/42_data_port.md R66, R68, R69). -/

namespace Sys2Proof
namespace Machine

/-! ### Data accesses inside the content and past it (R64, R65) -/

/-- At end-of-device a device is not inside its content (R64). -/
theorem Device.inContent_eq_false_iff (d : Device) : d.inContent = false ↔ d.size.toNat ≤ d.cursor.toNat := by
  rw [← Bool.not_eq_true, Device.inContent_iff, Nat.not_lt]

/-- Inside the content of a well-formed device the byte read is the one the buffer holds at the cursor (R64). -/
theorem Device.getElem?_cursor {cap : Nat} {d : Device} (hwf : d.wf cap = true) (h : d.inContent = true) :
    d.buffer[d.cursor.toNat]? = some d.dataByte := by
  obtain ⟨hlen, -⟩ := Device.wf_iff.1 hwf
  have hlt : d.cursor.toNat < d.buffer.length := hlen ▸ (Device.inContent_iff d).1 h
  simp [Device.dataByte, h, hlt]

theorem Device.dataByte_past {d : Device} (h : d.inContent = false) : d.dataByte = 0 := by
  simp [Device.dataByte, h]

theorem Device.afterRead_inside {d : Device} (h : d.inContent = true) :
    d.afterRead = { d with cursor := d.cursor + 1 } := by
  simp [Device.afterRead, h]

theorem Device.afterRead_past {d : Device} (h : d.inContent = false) : d.afterRead = d := by
  simp [Device.afterRead, h]

theorem Device.afterWrite_inside {d : Device} (h : d.inContent = true) (v : Byte) :
    d.afterWrite v = { d with buffer := d.buffer.set d.cursor.toNat v, cursor := d.cursor + 1 } := by
  simp [Device.afterWrite, h]

theorem Device.afterWrite_past {d : Device} (h : d.inContent = false) (v : Byte) : d.afterWrite v = d := by
  simp [Device.afterWrite, h]

/-- A write inside the content of a well-formed device is found at the cursor it was made at (R65). -/
theorem Device.afterWrite_getElem?_cursor {cap : Nat} {d : Device} (hwf : d.wf cap = true) (h : d.inContent = true)
    (v : Byte) : (d.afterWrite v).buffer[d.cursor.toNat]? = some v := by
  obtain ⟨hlen, -⟩ := Device.wf_iff.1 hwf
  have hlt : d.cursor.toNat < d.buffer.length := hlen ▸ (Device.inContent_iff d).1 h
  simp [Device.afterWrite_inside h, hlt]

/-- A write leaves every byte away from the cursor, inside the content or not (R65). -/
theorem Device.afterWrite_getElem?_of_ne (d : Device) (v : Byte) {j : Nat} (hj : j ≠ d.cursor.toNat) :
    (d.afterWrite v).buffer[j]? = d.buffer[j]? := by
  cases h : d.inContent with
  | true => rw [Device.afterWrite_inside h, List.getElem?_set_ne hj.symm]
  | false => rw [Device.afterWrite_past h]

theorem Device.sameContent_afterRead (d : Device) : d.sameContent d.afterRead :=
  ⟨d.afterRead_buffer, d.afterRead_size⟩

theorem Device.sameFlags_afterRead (d : Device) : d.sameFlags d.afterRead :=
  ⟨d.afterRead_pending, d.afterRead_pendingRd, d.afterRead_pendingWr⟩

theorem Device.sameFlags_afterWrite (v : Byte) (d : Device) : d.sameFlags (d.afterWrite v) :=
  ⟨d.afterWrite_pending v, d.afterWrite_pendingRd v, d.afterWrite_pendingWr v⟩

/-! ### A data-port read of either device -/

/-- Inside the content a data read returns the byte at the cursor and moves the cursor on by 1 (R64). -/
theorem readDataPort_inside {cap : Nat} {id : DevId} {s : State} (hwf : (s.dev id).wf cap = true)
    (h : (s.dev id).cursor.toNat < (s.dev id).size.toNat) :
    (readDataPort id s).reply = (s.dev id).buffer[(s.dev id).cursor.toNat]? ∧
      (readDataPort id s).reply.isSome = true ∧
      ((readDataPort id s).dev id).cursor.toNat = (s.dev id).cursor.toNat + 1 := by
  have hin : (s.dev id).inContent = true := (Device.inContent_iff _).2 h
  refine ⟨?_, by simp, ?_⟩
  · rw [readDataPort_reply, Device.getElem?_cursor hwf hin]
  · rw [readDataPort_dev, Device.afterRead_inside hin, Device.cursor_succ_toNat hin]

/-- At end-of-device a data read returns 0 and leaves the cursor (R64). -/
theorem readDataPort_past {id : DevId} {s : State} (h : (s.dev id).size.toNat ≤ (s.dev id).cursor.toNat) :
    (readDataPort id s).reply = some 0 ∧ ((readDataPort id s).dev id).cursor = (s.dev id).cursor := by
  have hout : (s.dev id).inContent = false := (Device.inContent_eq_false_iff _).2 h
  rw [readDataPort_reply, readDataPort_dev, Device.dataByte_past hout, Device.afterRead_past hout]
  exact ⟨rfl, rfl⟩

theorem readDataPort_sameContent (id : DevId) (s : State) : (s.dev id).sameContent ((readDataPort id s).dev id) :=
  readDataPort_dev id s ▸ Device.sameContent_afterRead _

theorem readDataPort_sameFlags (id : DevId) (s : State) : (s.dev id).sameFlags ((readDataPort id s).dev id) :=
  readDataPort_dev id s ▸ Device.sameFlags_afterRead _

theorem readDataPort_sameLogs (id : DevId) (s : State) : sameLogs s (readDataPort id s) :=
  ⟨readDataPort_console id s, readDataPort_diag id s⟩

/-! ### A data-port write of either device -/

/-- Inside the content a data write stores its byte at the cursor only, and moves the cursor on by 1 (R65). -/
theorem writeDataPort_inside {cap : Nat} {id : DevId} {s : State} (hwf : (s.dev id).wf cap = true)
    (h : (s.dev id).cursor.toNat < (s.dev id).size.toNat) (d : Byte) :
    ((writeDataPort id d s).dev id).buffer[(s.dev id).cursor.toNat]? = some d ∧
      (∀ j, j ≠ (s.dev id).cursor.toNat →
        ((writeDataPort id d s).dev id).buffer[j]? = (s.dev id).buffer[j]?) ∧
      ((writeDataPort id d s).dev id).cursor.toNat = (s.dev id).cursor.toNat + 1 := by
  have hin : (s.dev id).inContent = true := (Device.inContent_iff _).2 h
  rw [writeDataPort_dev]
  refine ⟨Device.afterWrite_getElem?_cursor hwf hin d, fun j hj => Device.afterWrite_getElem?_of_ne _ d hj, ?_⟩
  rw [Device.afterWrite_inside hin, Device.cursor_succ_toNat hin]

/-- At or past `size` a data write leaves its device (R65). -/
theorem writeDataPort_past {id : DevId} {s : State} (h : (s.dev id).size.toNat ≤ (s.dev id).cursor.toNat) (d : Byte) :
    (writeDataPort id d s).dev id = s.dev id := by
  rw [writeDataPort_dev, Device.afterWrite_past ((Device.inContent_eq_false_iff _).2 h)]

theorem writeDataPort_sameFlags (id : DevId) (d : Byte) (s : State) :
    (s.dev id).sameFlags ((writeDataPort id d s).dev id) :=
  writeDataPort_dev id d s ▸ Device.sameFlags_afterWrite d _

theorem writeDataPort_sameLogs (id : DevId) (d : Byte) (s : State) : sameLogs s (writeDataPort id d s) :=
  ⟨writeDataPort_console id d s, writeDataPort_diag id d s⟩

/-! ### The statements -/

/-- Settles O21: both reads are the data-port read of their device, which inside the content returns the byte at the
cursor, past it returns 0, and reaches nothing but that device's cursor. -/
theorem dataReadsFollowTheCursor : Obligations.DataReadsFollowTheCursor := by
  refine ⟨fun s hwf => ?_, fun s hwf => ?_⟩
  · exact ⟨readDataPort .inp s, exec_eq .inStdio s, readDataPort_inside (id := .inp) hwf,
      readDataPort_past (id := .inp), readDataPort_sameContent .inp s, readDataPort_sameFlags .inp s,
      readDataPort_inp_fsDev s, readDataPort_mem .inp s, readDataPort_sameLogs .inp s,
      execNext_sameControl .inStdio s⟩
  · exact ⟨readDataPort .fs s, exec_eq .inFsdata s, readDataPort_inside (id := .fs) hwf,
      readDataPort_past (id := .fs), readDataPort_sameContent .fs s, readDataPort_sameFlags .fs s,
      readDataPort_fs_inDev s, readDataPort_mem .fs s, readDataPort_sameLogs .fs s,
      execNext_sameControl .inFsdata s⟩

/-- Settles O23: OUT_FSDATA is the data-port write of FS, which inside the content stores its byte at the cursor, past it
leaves the device, and reaches nothing but FS. -/
theorem fsWriteOverwritesAtCursor : Obligations.FsWriteOverwritesAtCursor := by
  intro d s hwf
  obtain ⟨hsize, -⟩ := sameSizes_writeDataPort .fs d s .fs
  exact ⟨writeDataPort .fs d s, exec_eq (.outFsdata d) s, fun h => writeDataPort_inside (id := .fs) hwf h d,
    fun h => writeDataPort_past (id := .fs) h d, hsize, writeDataPort_sameFlags .fs d s, writeDataPort_reply .fs d s,
    writeDataPort_fs_inDev d s, writeDataPort_mem .fs d s, writeDataPort_sameLogs .fs d s,
    execNext_sameControl (.outFsdata d) s⟩

end Machine
end Sys2Proof
end

section
/-! SUPPORT. The statements on the seek/tell ports (spec/43_seek_tell.md R72–R74, R76–R79). -/

namespace Sys2Proof
namespace Machine

/-! ### The flag, the byte and the cursor of a seek-port access (R72–R75) -/

theorem Device.flag_tell (m : ToggleMode) (d : Device) :
    d.flag m .tell = if m = .shared then d.pending else d.pendingRd := by
  cases m <;> rfl

theorem Device.flag_seek (m : ToggleMode) (d : Device) :
    d.flag m .seek = if m = .shared then d.pending else d.pendingWr := by
  cases m <;> rfl

/-- The phase of an access, as the trace record names it (R80). -/
theorem Device.half_eq_ite (m : ToggleMode) (dir : Dir) (d : Device) :
    d.half m dir = if d.flag m dir then .low else .high := by
  unfold Device.half
  cases d.flag m dir <;> rfl

theorem Device.tellByte_toNat_of_high {m : ToggleMode} {d : Device} (h : d.flag m .tell = false) :
    (d.tellByte m).toNat = d.cursor.toNat / 256 := by
  rw [(Device.tell_high h).1, highByte_toNat]

theorem Device.tellByte_toNat_of_low {m : ToggleMode} {d : Device} (h : d.flag m .tell = true) :
    (d.tellByte m).toNat = d.cursor.toNat % 256 := by
  rw [(Device.tell_low h).1, lowByte_toNat]

theorem Device.afterTell_shared (d : Device) : d.afterTell .shared = { d with pending := !d.pending } := rfl

theorem Device.afterTell_independent (d : Device) :
    d.afterTell .independent = { d with pendingRd := !d.pendingRd } := rfl

theorem seekLow_toNat (cursor : Word16) (v : Byte) : (seekLow cursor v).toNat = cursor.toNat ||| v.toNat := by
  have hv : v.toNat < 65536 := (byte_toNat_lt v).trans (by decide)
  simp [seekLow, widen, Nat.mod_eq_of_lt hv]

/-- Where the low byte of the cursor is 0, OR-ing the second half in adds it (R73). -/
theorem seekLow_toNat_of_low_zero {cursor : Word16} (h : cursor.toNat % 256 = 0) (v : Byte) :
    (seekLow cursor v).toNat = cursor.toNat + v.toNat := by
  have hmul : 2 ^ 8 * (cursor.toNat / 256) = cursor.toNat := by omega
  have hor := Nat.two_pow_add_eq_or_of_lt (i := 8) (byte_toNat_lt v) (cursor.toNat / 256)
  rw [seekLow_toNat, ← hmul, hor]

theorem Device.afterSeek_cursor_of_high {m : ToggleMode} {d : Device} (h : d.flag m .seek = false) (v : Byte) :
    (d.afterSeek m v).cursor = seekHigh v := by
  rw [Device.seek_high h, Device.setFlag_cursor]

theorem Device.afterSeek_cursor_of_low {m : ToggleMode} {d : Device} (h : d.flag m .seek = true) (v : Byte) :
    (d.afterSeek m v).cursor = seekLow d.cursor v := by
  rw [Device.seek_low h, Device.setFlag_cursor]

/-- In Shared mode a seek changes the cursor and the shared flag only (R73, R74). -/
theorem Device.afterSeek_shared (v : Byte) (d : Device) :
    d.afterSeek .shared v = { d with cursor := (d.afterSeek .shared v).cursor, pending := !d.pending } := by
  unfold Device.afterSeek
  split <;> rfl

/-- In Independent mode a seek changes the cursor and the write flag only (R73, R75). -/
theorem Device.afterSeek_independent (v : Byte) (d : Device) :
    d.afterSeek .independent v =
      { d with cursor := (d.afterSeek .independent v).cursor, pendingWr := !d.pendingWr } := by
  unfold Device.afterSeek
  split <;> rfl

/-! ### Tell and seek as next states -/

theorem execNext_tellOp (id : DevId) (s : State) : execNext (tellOp id) s = tellPort id s := by
  cases id <;> rfl

theorem execNext_seekOp (id : DevId) (d : Byte) (s : State) : execNext (seekOp id d) s = seekPort id d s := by
  cases id <;> rfl

theorem execNext_dataReadOp (id : DevId) (s : State) : execNext (dataReadOp id) s = readDataPort id s := by
  cases id <;> rfl

/-! ### A device replaced before an access of the other device -/

theorem State.setDev_dev_self (s : State) (id : DevId) : s.setDev id (s.dev id) = s := by
  cases id <;> rfl

theorem State.setDev_setDev (s : State) (id : DevId) (d e : Device) : (s.setDev id d).setDev id e = s.setDev id e := by
  cases id <;> rfl

theorem State.setDev_comm (s : State) {id id' : DevId} (h : id' ≠ id) (d e : Device) :
    (s.setDev id d).setDev id' e = (s.setDev id' e).setDev id d := by
  match id, id', h with
  | .inp, .inp, h => exact absurd rfl h
  | .inp, .fs, _ => rfl
  | .fs, .inp, _ => rfl
  | .fs, .fs, h => exact absurd rfl h

theorem State.setDev_answer (s : State) (id : DevId) (d : Device) (r : Option Byte) :
    (s.setDev id d).answer r = (s.answer r).setDev id d := by
  cases id <;> rfl

theorem State.setDev_emit (s : State) (id : DevId) (d : Device) (r : DiagRecord) :
    (s.setDev id d).emit r = (s.emit r).setDev id d := by
  cases id <;> rfl

theorem State.setDev_setMem (s : State) (id : DevId) (d : Device) (m : Memory) :
    (s.setDev id d).setMem m = (s.setMem m).setDev id d := by
  cases id <;> rfl

theorem State.setDev_appendConsole (s : State) (id : DevId) (d : Device) (b : Byte) :
    (s.setDev id d).appendConsole b = (s.appendConsole b).setDev id d := by
  cases id <;> rfl

/-- The trace of an access reads no device but the accessed one (R80). -/
theorem traceSeekPort_setDev_of_ne {id id' : DevId} (h : id' ≠ id) (dir : Dir) (b : Byte) (d : Device) (s : State) :
    traceSeekPort id' dir b (s.setDev id d) = (traceSeekPort id' dir b s).setDev id d := by
  unfold traceSeekPort
  rw [State.setDev_params, State.setDev_dev_of_ne s d h, State.setDev_emit]
  split <;> rfl

theorem readDataPort_setDev_of_ne {id id' : DevId} (h : id' ≠ id) (d : Device) (s : State) :
    readDataPort id' (s.setDev id d) = (readDataPort id' s).setDev id d := by
  simp only [readDataPort, State.setDev_dev_of_ne s d h, State.setDev_comm s h, State.setDev_answer]

theorem writeDataPort_setDev_of_ne {id id' : DevId} (h : id' ≠ id) (v : Byte) (d : Device) (s : State) :
    writeDataPort id' v (s.setDev id d) = (writeDataPort id' v s).setDev id d := by
  simp only [writeDataPort, State.setDev_dev_of_ne s d h, State.setDev_comm s h, State.setDev_answer]

theorem tellPort_setDev_of_ne {id id' : DevId} (h : id' ≠ id) (d : Device) (s : State) :
    tellPort id' (s.setDev id d) = (tellPort id' s).setDev id d := by
  simp only [tellPort, traceSeekPort_setDev_of_ne h, State.setDev_params, State.setDev_dev_of_ne s d h,
    State.setDev_comm _ h, State.setDev_answer]

theorem seekPort_setDev_of_ne {id id' : DevId} (h : id' ≠ id) (v : Byte) (d : Device) (s : State) :
    seekPort id' v (s.setDev id d) = (seekPort id' v s).setDev id d := by
  simp only [seekPort, traceSeekPort_setDev_of_ne h, State.setDev_params, State.setDev_dev_of_ne s d h,
    State.setDev_comm _ h, State.setDev_answer]

/-! ### Transactions that do not reach a device, and those that do (R20) -/

theorem ne_of_reachesDevice {id id' : DevId} {i : Instr} (h : reachesDevice id i = false)
    (h' : reachesDevice id' i = true) : id' ≠ id := by
  rintro rfl
  rw [h] at h'
  cases h'

/-- A transaction of none of a device's ports neither reads nor writes that device. -/
theorem execNext_setDev {id : DevId} {i : Instr} (h : reachesDevice id i = false) (d : Device) (s : State) :
    execNext i (s.setDev id d) = (execNext i s).setDev id d := by
  cases i with
  | memRd a => simp only [execNext, State.setDev_mem, State.setDev_answer]
  | memWr a v => simp only [execNext, State.setDev_mem, State.setDev_setMem, State.setDev_answer]
  | inStdio => exact readDataPort_setDev_of_ne (ne_of_reachesDevice h rfl) d s
  | inInseek => exact tellPort_setDev_of_ne (ne_of_reachesDevice h rfl) d s
  | inFsdata => exact readDataPort_setDev_of_ne (ne_of_reachesDevice h rfl) d s
  | inFsseek => exact tellPort_setDev_of_ne (ne_of_reachesDevice h rfl) d s
  | inUnmapped p => simp only [execNext, unmappedRead, State.setDev_emit, State.setDev_answer]
  | outStdio v => simp only [execNext, State.setDev_appendConsole, State.setDev_answer]
  | outInseek v => exact seekPort_setDev_of_ne (ne_of_reachesDevice h rfl) v d s
  | outFsdata v => exact writeDataPort_setDev_of_ne (ne_of_reachesDevice h rfl) v d s
  | outFsseek v => exact seekPort_setDev_of_ne (ne_of_reachesDevice h rfl) v d s
  | outUnmapped p v => simp only [execNext, unmappedWrite, State.setDev_emit, State.setDev_answer]

theorem execNext_dev_of_not_reaches {id : DevId} {i : Instr} (h : reachesDevice id i = false) (s : State) :
    (execNext i s).dev id = s.dev id := by
  rw [← State.setDev_dev_self s id, execNext_setDev h, State.setDev_dev, State.setDev_dev]

/-- The transactions that reach a device: its tell, its seek, its data read, and for FS the data write (R52). -/
theorem reachesDevice_cases {id : DevId} {i : Instr} (h : reachesDevice id i = true) :
    i = tellOp id ∨ (∃ d, i = seekOp id d) ∨ i = dataReadOp id ∨ id = .fs ∧ ∃ d, i = .outFsdata d := by
  unfold reachesDevice at h
  split at h
  · exact .inr (.inr (.inl rfl))
  · exact .inl rfl
  · exact .inr (.inl ⟨_, rfl⟩)
  · exact .inr (.inr (.inl rfl))
  · exact .inr (.inr (.inr ⟨rfl, _, rfl⟩))
  · exact .inl rfl
  · exact .inr (.inl ⟨_, rfl⟩)
  · cases h

@[simp] theorem isTellOf_tellOp (id : DevId) : isTellOf id (tellOp id) = true := by cases id <;> rfl
@[simp] theorem isSeekOf_seekOp (id : DevId) (d : Byte) : isSeekOf id (seekOp id d) = true := by cases id <;> rfl

theorem eq_tellOp_of_isTellOf {id : DevId} {i : Instr} (h : isTellOf id i = true) : i = tellOp id :=
  of_decide_eq_true h

theorem eq_seekOp_of_isSeekOf {id : DevId} {i : Instr} (h : isSeekOf id i = true) : ∃ d, i = seekOp id d := by
  unfold isSeekOf at h
  split at h
  · exact ⟨_, rfl⟩
  · exact ⟨_, rfl⟩
  · cases h

/-! ### The shared flag of a device (R74) -/

/-- The state with the shared flag of device `id` at `v`. -/
def State.setPending (s : State) (id : DevId) (v : Bool) : State := s.setDev id { s.dev id with pending := v }

theorem State.setPending_self (s : State) (id : DevId) : s.setPending id (s.dev id).pending = s :=
  State.setDev_dev_self s id

theorem State.setPending_pending (s : State) (id : DevId) (v : Bool) : ((s.setPending id v).dev id).pending = v := by
  rw [State.setPending, State.setDev_dev]

theorem Device.dataByte_setPending (d : Device) (v : Bool) :
    ({ d with pending := v } : Device).dataByte = d.dataByte := rfl

/-- A data read neither reads nor writes the shared flag (R64). -/
theorem Device.afterRead_setPending (d : Device) (v : Bool) :
    ({ d with pending := v } : Device).afterRead = { d.afterRead with pending := v } := by
  cases h : d.inContent with
  | true => rw [Device.afterRead_inside h]; exact Device.afterRead_inside (d := { d with pending := v }) h
  | false => rw [Device.afterRead_past h]; exact Device.afterRead_past (d := { d with pending := v }) h

/-- A data write neither reads nor writes the shared flag (R65). -/
theorem Device.afterWrite_setPending (d : Device) (b : Byte) (v : Bool) :
    ({ d with pending := v } : Device).afterWrite b = { d.afterWrite b with pending := v } := by
  cases h : d.inContent with
  | true => rw [Device.afterWrite_inside h]; exact Device.afterWrite_inside (d := { d with pending := v }) h b
  | false => rw [Device.afterWrite_past h]; exact Device.afterWrite_past (d := { d with pending := v }) h b

theorem readDataPort_setPending (id : DevId) (s : State) (v : Bool) :
    readDataPort id (s.setPending id v) = (readDataPort id s).setPending id v := by
  simp only [State.setPending, readDataPort, State.setDev_dev, Device.afterRead_setPending,
    Device.dataByte_setPending, State.setDev_setDev, State.setDev_answer]

theorem writeDataPort_setPending (id : DevId) (b : Byte) (s : State) (v : Bool) :
    writeDataPort id b (s.setPending id v) = (writeDataPort id b s).setPending id v := by
  simp only [State.setPending, writeDataPort, State.setDev_dev, Device.afterWrite_setPending,
    State.setDev_setDev, State.setDev_answer]

/-- A transaction that is no access of the device's seek port does not read the shared flag (R74). -/
theorem execNext_setPending {id : DevId} {i : Instr} (ht : isTellOf id i = false) (hs : isSeekOf id i = false)
    (s : State) (v : Bool) : execNext i (s.setPending id v) = (execNext i s).setPending id v := by
  cases hr : reachesDevice id i with
  | false =>
    rw [State.setPending, execNext_setDev hr, State.setPending, execNext_dev_of_not_reaches hr]
  | true =>
    obtain rfl | ⟨d, rfl⟩ | rfl | ⟨rfl, d, rfl⟩ := reachesDevice_cases hr
    · simp at ht
    · simp at hs
    · rw [execNext_dataReadOp, execNext_dataReadOp, readDataPort_setPending]
    · exact writeDataPort_setPending .fs d s v

/-- In Shared mode an access of the device's seek port toggles the flag and nothing else writes it (R74). -/
theorem execNext_pending (id : DevId) (i : Instr) {s : State} (hm : s.params.toggleMode = .shared) :
    ((execNext i s).dev id).pending = Bool.xor (s.dev id).pending (isTellOf id i || isSeekOf id i) := by
  cases ht : isTellOf id i with
  | true =>
    rw [eq_tellOp_of_isTellOf ht, execNext_tellOp, tellPort_dev, hm, Device.afterTell_shared]
    simp
  | false =>
    cases hs : isSeekOf id i with
    | true =>
      obtain ⟨d, rfl⟩ := eq_seekOp_of_isSeekOf hs
      rw [execNext_seekOp, seekPort_dev, hm, Device.afterSeek_shared]
      simp
    | false =>
      have hkept := execNext_setPending ht hs s (s.dev id).pending
      rw [State.setPending_self] at hkept
      rw [hkept, State.setPending_pending, Bool.or_self, Bool.xor_false]

/-! ### The statements -/

/-- Settles O26: both reads are the tell of their device, which answers the half its flag names and changes that flag
and the trace only. -/
theorem tellReturnsACursorHalf : Obligations.TellReturnsACursorHalf := by
  intro id i s f hi hf
  have htell : i = tellOp id := by obtain ⟨rfl, rfl⟩ | ⟨rfl, rfl⟩ := hi <;> rfl
  rw [← Device.flag_tell] at hf
  subst htell hf
  refine ⟨tellPort id s, (s.dev id).tellByte s.params.toggleMode, exec_tellOp id s, tellPort_reply id s,
    Device.tellByte_toNat_of_high, Device.tellByte_toNat_of_low, fun hm => ?_, fun hm => ?_,
    fun _ => tellPort_dev_of_ne s, tellPort_mem id s, tellPort_console id s, ?_,
    execNext_tellOp id s ▸ execNext_sameControl (tellOp id) s⟩
  · rw [tellPort_dev, hm]
    exact Device.afterTell_shared _
  · rw [tellPort_dev, hm]
    exact Device.afterTell_independent _
  · rw [tellPort_diag, Device.half_eq_ite]
    cases s.params.debugTrace <;> rfl

/-- Settles O27: both writes are the seek of their device, which sets the half its flag names and changes the cursor,
that flag and the trace only. -/
theorem seekSetsACursorHalf : Obligations.SeekSetsACursorHalf := by
  intro id v i s f hi hf
  have hseek : i = seekOp id v := by obtain ⟨rfl, rfl⟩ | ⟨rfl, rfl⟩ := hi <;> rfl
  rw [← Device.flag_seek] at hf
  subst hseek hf
  refine ⟨seekPort id v s, ((s.dev id).afterSeek s.params.toggleMode v).cursor, exec_seekOp id v s,
    seekPort_reply id v s, fun h => ?_, fun h => ?_, fun h hlow => ?_, fun hm => ?_, fun hm => ?_,
    fun _ => seekPort_dev_of_ne v s, seekPort_mem id v s, seekPort_console id v s, ?_,
    execNext_seekOp id v s ▸ execNext_sameControl (seekOp id v) s⟩
  · rw [Device.afterSeek_cursor_of_high h, seekHigh_toNat]
  · rw [Device.afterSeek_cursor_of_low h, seekLow_toNat]
  · rw [Device.afterSeek_cursor_of_low h, seekLow_toNat_of_low_zero hlow]
  · rw [seekPort_dev, hm]
    exact Device.afterSeek_shared v _
  · rw [seekPort_dev, hm]
    exact Device.afterSeek_independent v _
  · rw [seekPort_diag, Device.half_eq_ite]
    cases s.params.debugTrace <;> rfl

/-- Settles O28: a device's tell and seek toggle its shared flag, and every other transaction commutes with
setting it. -/
theorem sharedFlagTogglesOnItsPortOnly : Obligations.SharedFlagTogglesOnItsPortOnly := by
  intro id i s hm
  refine ⟨execNext i s, exec_eq i s, execNext_pending id i hm, fun ht hs v => ?_⟩
  exact exec_next_iff.2 (execNext_setPending ht hs s v).symm

end Machine
end Sys2Proof
end

section
/-! SUPPORT. The statement on the end of a run (spec/44_execution_loop.md R86). -/

namespace Sys2Proof
namespace Machine

/-- No step leads on from Halted (R86): every step with a next state starts in Running. -/
theorem stepWith_ne_next_of_halted (c : CpuCore) {s : State} (hl : s.loop = .halted) (t : State) :
    stepWith c s ≠ .next t := by
  obtain ⟨-, -, hterminal⟩ := onlyTheHaltTestHalts
  exact hterminal c s t hl

/-- A run from Halted that ends in a state has made no step. -/
theorem runWith_eq_self_of_halted {c : CpuCore} {n : Nat} {s t : State} (hl : s.loop = .halted)
    (h : runWith c n s = .next t) : t = s := by
  cases n with
  | zero => exact (Host.Outcome.next.inj h).symm
  | succ n =>
    obtain ⟨u, hu, -⟩ := runWith_succ h
    exact absurd hu (stepWith_ne_next_of_halted c hl u)

/-- Settles O40: no step has a next state, so a run that ends in a state is the empty one. -/
theorem haltedIsTerminal : Obligations.HaltedIsTerminal := fun c _ hl =>
  ⟨stepWith_ne_next_of_halted c hl, fun _ _ h => runWith_eq_self_of_halted hl h⟩

end Machine
end Sys2Proof
end

section
/-! SUPPORT. The statement on the contained fault categories (spec/60_exceptions.md R92–R94). -/

namespace Sys2Proof
namespace Machine

/-! ### What each category is met by (R92) -/

/-- `E_PORT` is met by the two unmapped operations alone, in every state (R93). -/
theorem faultCategory_eq_port_iff {i : Instr} {s : State} :
    faultCategory i s = some .port ↔ (∃ p, i = .inUnmapped p) ∨ ∃ p d, i = .outUnmapped p d := by
  cases i with
  | outFsdata d => cases h : s.fsDev.inContent <;> simp [faultCategory, h]
  | _ => simp [faultCategory]

/-- `E_OVERRUN_WR` is met by OUT_FSDATA alone, when FS is at end-of-device (R94). -/
theorem faultCategory_eq_overrunWrite_iff {i : Instr} {s : State} :
    faultCategory i s = some .overrunWrite ↔ (∃ d, i = .outFsdata d) ∧ s.fsDev.size.toNat ≤ s.fsDev.cursor.toNat := by
  rw [← Device.inContent_eq_false_iff]
  cases i with
  | outFsdata d => cases h : s.fsDev.inContent <;> simp [faultCategory, h]
  | _ => simp [faultCategory]

/-- `E_OVERRUN_IN` is met by an input stream beyond IN's capacity (R94, R107). -/
theorem bootCategory_eq_overrunInput_iff {cfg : RunConfig} :
    bootCategory cfg = some .overrunInput ↔ Config.inCap < cfg.input.length := by
  unfold bootCategory
  split <;> simp [*]

/-! ### What each category leaves (R93, R94) -/

/-- At end-of-device a data read only answers 0 (R64). -/
theorem readDataPort_eq_answer_of_past {id : DevId} {s : State}
    (h : (s.dev id).size.toNat ≤ (s.dev id).cursor.toNat) : readDataPort id s = s.answer (some 0) := by
  have hout : (s.dev id).inContent = false := (Device.inContent_eq_false_iff _).2 h
  rw [readDataPort, Device.afterRead_past hout, Device.dataByte_past hout, State.setDev_dev_self]

/-- At or past `size` a data write changes nothing and answers nothing (R65). -/
theorem writeDataPort_eq_answer_of_past {id : DevId} {s : State}
    (h : (s.dev id).size.toNat ≤ (s.dev id).cursor.toNat) (d : Byte) : writeDataPort id d s = s.answer none := by
  rw [writeDataPort, Device.afterWrite_past ((Device.inContent_eq_false_iff _).2 h), State.setDev_dev_self]

/-- The bootstrap looks at no input byte beyond IN's capacity: only reset step 4 reads the stream, and it cuts it there
(R107). -/
theorem bootstrapFrom_take_input (s : State) (cfg : RunConfig) :
    bootstrapFrom s { cfg with input := cfg.input.take Config.inCap } = bootstrapFrom s cfg := by
  have hinput (u : State) : bootInput { cfg with input := cfg.input.take Config.inCap } u = bootInput cfg u := by
    simp only [bootInput, List.take_take, Nat.min_self]
  unfold bootstrapFrom
  rw [hinput]
  rfl

/-! ### The statement -/

/-- Settles O25: each category's cause is read off its definition, the unmapped accesses by themselves record and
answer, an access at end-of-device only answers, and the bootstrap cuts the input at IN's capacity. -/
theorem overrunsAreContained : Obligations.OverrunsAreContained := by
  refine ⟨fun _ _ => faultCategory_eq_port_iff, fun p s => exec_eq (.inUnmapped p) s,
    fun p d s => exec_eq (.outUnmapped p d) s, fun _ _ => faultCategory_eq_overrunWrite_iff, fun i s hi => ?_,
    fun id s hpast => ?_, fun _ => bootCategory_eq_overrunInput_iff,
    fun cfg _ => (bootstrapFrom_take_input State.reset cfg).symm⟩
  · obtain ⟨⟨d, rfl⟩, hpast⟩ := faultCategory_eq_overrunWrite_iff.1 hi
    exact exec_next_iff.2 (writeDataPort_eq_answer_of_past (id := .fs) hpast d).symm
  · rw [exec_dataReadOp, readDataPort_eq_answer_of_past hpast]
    rfl

end Machine
end Sys2Proof
end

section
/-! SUPPORT. The statement on the devices after reset (spec/70_reset_and_hazards.md R106–R108). -/

namespace Sys2Proof
namespace Machine

/-! ### What the reset leaves in a device (R106–R108) -/

/-- The bytes that reset steps 3 and 4 load into a device (R106, R107). -/
def bootContent (cfg : RunConfig) : DevId → List Byte
  | .inp => cfg.input.take Config.inCap
  | .fs => cfg.fsImg

/-- The bootstrap leaves each device loaded with its content and its flags cleared: reset steps 3, 4 and 5, each device
apart from the other (R106–R108). -/
theorem bootstrapFrom_dev {s₀ s : State} {cfg : RunConfig} (h : bootstrapFrom s₀ cfg = .next s) (id : DevId) :
    s.dev id = ((s₀.dev id).loadContent (bootContent cfg id)).clearFlags := by
  obtain ⟨-, rfl⟩ := bootstrapFrom_next_iff.1 h
  cases id <;> rfl

/-- The content of a device counts in 16 bits: FS by its precondition, IN by its capacity (R17, R110). -/
theorem bootContent_length_lt {cfg : RunConfig} (hfs : cfg.fsImg.length ≤ 65535) (id : DevId) :
    (bootContent cfg id).length < 65536 := by
  cases id with
  | inp =>
    have hcut : (bootContent cfg .inp).length ≤ 32768 := List.length_take_le _ _
    omega
  | fs => exact Nat.lt_succ_of_le hfs

/-- The size a load sets is the length of the bytes where that counts in 16 bits (R17). -/
theorem Device.loadContent_size_toNat {bytes : List Byte} (h : bytes.length < 65536) (d : Device) :
    (d.loadContent bytes).size.toNat = bytes.length :=
  (BitVec.toNat_ofNat _ _).trans (Nat.mod_eq_of_lt h)

/-! ### A tell from the high phase -/

/-- TELL from the high phase returns the two halves of the cursor, in either toggle mode: the first read sets the flag
it consults and leaves the cursor (R55, R72). -/
theorem repliesOf_tellSeq {id : DevId} {s : State} (h : (s.dev id).flag s.params.toggleMode .tell = false) :
    repliesOf (tellSeq id) s = [highByte (s.dev id).cursor, lowByte (s.dev id).cursor] := by
  have hlow : ((s.dev id).afterTell s.params.toggleMode).flag s.params.toggleMode .tell = true := by
    rw [Device.afterTell, Device.toggle_flag, h, Bool.not_false]
  simp [tellSeq, repliesOf, exec_tellOp, (Device.tell_high h).1, (Device.tell_low hlow).1]

/-! ### The statement -/

/-- Settles O45: the bootstrap leaves each device loaded and its flags cleared, so a tell starts in the high phase and
returns the halves of cursor 0. -/
theorem devicesAfterReset : Obligations.DevicesAfterReset := by
  intro s0 cfg hboot hprog hfs
  have hfit : misfit cfg = none := misfit_eq_none.2 ⟨hboot, hprog, hfs⟩
  obtain ⟨t, ht⟩ : ∃ t, bootstrapFrom s0 cfg = .next t := ⟨_, bootstrapFrom_next_iff.2 ⟨hfit, rfl⟩⟩
  have hdev := bootstrapFrom_dev ht
  have hsize (id : DevId) : (t.dev id).size.toNat = (bootContent cfg id).length := by
    rw [hdev, Device.clearFlags_size, Device.loadContent_size_toNat (bootContent_length_lt hfs id)]
  have hcursor (id : DevId) : (t.dev id).cursor = 0 := by rw [hdev]; rfl
  have hflags (id : DevId) :
      (t.dev id).pending = false ∧ (t.dev id).pendingRd = false ∧ (t.dev id).pendingWr = false := by
    rw [hdev]
    exact ⟨rfl, rfl, rfl⟩
  have htell (id : DevId) : repliesOf (tellSeq id) t = [0, 0] := by
    rw [repliesOf_tellSeq (by rw [hdev, Device.clearFlags_flag]), hcursor]
    rfl
  refine ⟨t, ht, congrArg Device.buffer (hdev .fs), hsize .fs, hcursor .fs, congrArg Device.buffer (hdev .inp), ?_,
    hcursor .inp, fun id => ?_⟩
  · rw [← State.dev_inp, hsize, bootContent, List.length_take, Nat.min_comm]
  · obtain ⟨hpending, hpendingRd, hpendingWr⟩ := hflags id
    exact ⟨hpending, hpendingRd, hpendingWr, htell id⟩

end Machine
end Sys2Proof
end

section
/-! SUPPORT. The layer the statements below share: what one transaction leaves of the parameters, the devices, their
flags and the log, each step as an equation, and the induction over a run and its transactions. -/

namespace Sys2Proof
namespace Machine

/-! ### The unmapped ports, part by part -/

@[simp] theorem unmappedRead_params (port : Port) (s : State) : (unmappedRead port s).params = s.params := rfl
@[simp] theorem unmappedRead_diag (port : Port) (s : State) :
    (unmappedRead port s).diag = s.diag ++ [.unmappedRead port] := rfl
@[simp] theorem unmappedWrite_params (port : Port) (d : Byte) (s : State) :
    (unmappedWrite port d s).params = s.params := rfl
@[simp] theorem unmappedWrite_diag (port : Port) (d : Byte) (s : State) :
    (unmappedWrite port d s).diag = s.diag ++ [.unmappedWrite port d] := rfl

/-! ### What one transaction leaves -/

/-- No transaction changes a parameter of the run (R31). -/
@[simp] theorem execNext_params (i : Instr) (s : State) : (execNext i s).params = s.params := by
  obtain ⟨-, h, -⟩ := execNext_sameControl i s
  exact h

@[simp] theorem execNext_cpu (i : Instr) (s : State) : (execNext i s).cpu = s.cpu := by
  obtain ⟨-, -, h, -⟩ := execNext_sameControl i s
  exact h

@[simp] theorem execNext_bus (i : Instr) (s : State) : (execNext i s).bus = s.bus := by
  obtain ⟨-, -, -, h, -⟩ := execNext_sameControl i s
  exact h

@[simp] theorem execNext_output (i : Instr) (s : State) : (execNext i s).output = s.output := by
  obtain ⟨-, -, -, -, h, -⟩ := execNext_sameControl i s
  exact h

@[simp] theorem execNext_exit (i : Instr) (s : State) : (execNext i s).exit = s.exit := by
  obtain ⟨-, -, -, -, -, h⟩ := execNext_sameControl i s
  exact h

/-- No transaction changes the content of IN: it has no data write (R65, R67). -/
theorem execNext_inDev_buffer (i : Instr) (s : State) : (execNext i s).inDev.buffer = s.inDev.buffer := by
  cases i <;> simp [execNext, unmappedRead, unmappedWrite]

/-- A transaction that stores nothing at an index of FS leaves the byte there, and OUT_FSDATA that meets the cursor
there inside the content stores its byte (R65, R69). -/
theorem execNext_fsDev_getElem? {s : State} (hwf : s.fsDev.wf 65535 = true) (i : Instr) (j : Nat) :
    (execNext i s).fsDev.buffer[j]? = (storesInFs j (i, s)).or s.fsDev.buffer[j]? := by
  cases i with
  | outFsdata d =>
    simp only [execNext, writeDataPort_fs_fsDev, storesInFs]
    by_cases hj : s.fsDev.cursor.toNat = j
    · subst hj
      cases hin : s.fsDev.inContent with
      | true => simp [(Device.inContent_iff _).1 hin, Device.afterWrite_getElem?_cursor hwf hin]
      | false =>
        have hpast := (Device.inContent_eq_false_iff _).1 hin
        simp [Device.afterWrite_past hin, hpast.not_gt]
    · simp [hj, Device.afterWrite_getElem?_of_ne s.fsDev d (Ne.symm hj)]
  | _ => simp [execNext, storesInFs, unmappedRead, unmappedWrite]

/-! ### The flags of a device (R74, R75) -/

/-- Does the transaction consult the flag that accesses of device `id` in direction `dir` consult? -/
def consultsFlag (m : ToggleMode) (id : DevId) (dir : Dir) (i : Instr) : Bool :=
  match m, dir with
  | .shared, _ => isTellOf id i || isSeekOf id i
  | .independent, .tell => isTellOf id i
  | .independent, .seek => isSeekOf id i

theorem Device.flag_afterTell (m : ToggleMode) (dir : Dir) (d : Device) :
    (d.afterTell m).flag m dir = Bool.xor (d.flag m dir) (decide (m = .shared ∨ dir = .tell)) := by
  cases m <;> cases dir <;> simp [Device.afterTell, Device.toggle, Device.setFlag, Device.flag]

theorem Device.flag_afterSeek (m : ToggleMode) (dir : Dir) (v : Byte) (d : Device) :
    (d.afterSeek m v).flag m dir = Bool.xor (d.flag m dir) (decide (m = .shared ∨ dir = .seek)) := by
  cases m with
  | shared => rw [Device.afterSeek_shared]; simp [Device.flag]
  | independent => rw [Device.afterSeek_independent]; cases dir <;> simp [Device.flag]

theorem isTellOf_seekOp (id : DevId) (d : Byte) : isTellOf id (seekOp id d) = false := by cases id <;> rfl
theorem isSeekOf_tellOp (id : DevId) : isSeekOf id (tellOp id) = false := by cases id <;> rfl
theorem isTellOf_dataReadOp (id : DevId) : isTellOf id (dataReadOp id) = false := by cases id <;> rfl
theorem isSeekOf_dataReadOp (id : DevId) : isSeekOf id (dataReadOp id) = false := by cases id <;> rfl

/-- A transaction of none of a device's ports consults none of its flags. -/
theorem consultsFlag_of_not_reaches {id : DevId} {i : Instr} (h : reachesDevice id i = false) (m : ToggleMode)
    (dir : Dir) : consultsFlag m id dir i = false := by
  have htell : isTellOf id i = false := by
    cases ht : isTellOf id i with
    | false => rfl
    | true => rw [eq_tellOp_of_isTellOf ht] at h; cases id <;> cases h
  have hseek : isSeekOf id i = false := by
    cases hs : isSeekOf id i with
    | false => rfl
    | true => obtain ⟨d, rfl⟩ := eq_seekOp_of_isSeekOf hs; cases id <;> cases h
  cases m <;> cases dir <;> simp [consultsFlag, htell, hseek]

/-- A transaction flips exactly the flags it consults (R74, R75). -/
theorem execNext_flag (id : DevId) (dir : Dir) (i : Instr) (s : State) :
    ((execNext i s).dev id).flag s.params.toggleMode dir =
      Bool.xor ((s.dev id).flag s.params.toggleMode dir) (consultsFlag s.params.toggleMode id dir i) := by
  generalize hm : s.params.toggleMode = m
  cases hr : reachesDevice id i with
  | false => rw [execNext_dev_of_not_reaches hr, consultsFlag_of_not_reaches hr, Bool.xor_false]
  | true =>
    obtain rfl | ⟨d, rfl⟩ | rfl | ⟨rfl, d, rfl⟩ := reachesDevice_cases hr
    · rw [execNext_tellOp, tellPort_dev, hm, Device.flag_afterTell]
      cases m <;> cases dir <;> simp [consultsFlag, isSeekOf_tellOp]
    · rw [execNext_seekOp, seekPort_dev, hm, Device.flag_afterSeek]
      cases m <;> cases dir <;> simp [consultsFlag, isTellOf_seekOp]
    · rw [execNext_dataReadOp, readDataPort_dev, Device.afterRead_flag]
      cases m <;> cases dir <;> simp [consultsFlag, isTellOf_dataReadOp, isSeekOf_dataReadOp]
    · simp only [execNext, writeDataPort_dev, Device.afterWrite_flag]
      cases m <;> cases dir <;> simp [consultsFlag, isTellOf, isSeekOf, tellOp]

/-! ### The records of a transaction (R60, R61, R80) -/

/-- The record of a seek-port access carrying `b`, made only under `DEBUG_TRACE` (R80). -/
def seekRecords (id : DevId) (dir : Dir) (b : Byte) (s : State) : List DiagRecord :=
  if s.params.debugTrace then [.seekTrace id dir ((s.dev id).half s.params.toggleMode dir) b] else []

theorem tellPort_diag_eq (id : DevId) (s : State) :
    (tellPort id s).diag = s.diag ++ seekRecords id .tell ((s.dev id).tellByte s.params.toggleMode) s := by
  rw [tellPort_diag, seekRecords]
  cases s.params.debugTrace <;> rfl

theorem seekPort_diag_eq (id : DevId) (d : Byte) (s : State) :
    (seekPort id d s).diag = s.diag ++ seekRecords id .seek d s := by
  rw [seekPort_diag, seekRecords]
  cases s.params.debugTrace <;> rfl

/-- The records a transaction adds to the diagnostic log: an unmapped access one, a seek-port access its trace. -/
def recordsOf (i : Instr) (s : State) : List DiagRecord :=
  match i with
  | .memRd _ => []
  | .memWr _ _ => []
  | .inStdio => []
  | .inInseek => seekRecords .inp .tell (s.inDev.tellByte s.params.toggleMode) s
  | .inFsdata => []
  | .inFsseek => seekRecords .fs .tell (s.fsDev.tellByte s.params.toggleMode) s
  | .inUnmapped port => [.unmappedRead port]
  | .outStdio _ => []
  | .outInseek d => seekRecords .inp .seek d s
  | .outFsdata _ => []
  | .outFsseek d => seekRecords .fs .seek d s
  | .outUnmapped port d => [.unmappedWrite port d]

theorem execNext_diag (i : Instr) (s : State) : (execNext i s).diag = s.diag ++ recordsOf i s := by
  cases i with
  | inInseek => exact tellPort_diag_eq .inp s
  | inFsseek => exact tellPort_diag_eq .fs s
  | outInseek d => exact seekPort_diag_eq .inp d s
  | outFsseek d => exact seekPort_diag_eq .fs d s
  | _ => simp [execNext, recordsOf]

/-! ### Each step as an equation, and the step of a run -/

theorem stepWith_halted (c : CpuCore) {s : State} (hl : s.loop = .halted) : stepWith c s = .fault .runEnded := by
  simp [stepWith, hl]

theorem stepWith_halt {c : CpuCore} {s : State} (hl : s.loop = .running) (hb : s.bus = .between)
    (hh : c.halted s.cpu = true) : stepWith c s = .next (haltActions c s) := by
  simp [stepWith, hl, hb, hh]

theorem stepWith_begin {c : CpuCore} {s : State} (hl : s.loop = .running) (hb : s.bus = .between)
    (hh : c.halted s.cpu = false) : stepWith c s = .next (beginCpuStep s) := by
  simp [stepWith, hl, hb, hh]

theorem stepWith_move {c : CpuCore} {s : State} (hl : s.loop = .running) (hb : s.bus = .inStep) :
    stepWith c s = .next (coreMove c s) := by
  simp [stepWith, hl, hb]

/-- The last step of a run apart from the others. -/
theorem runWith_snoc {c : CpuCore} {n : Nat} {s t : State} (h : runWith c (n + 1) s = .next t) :
    ∃ u, runWith c n s = .next u ∧ stepWith c u = .next t := by
  induction n generalizing s with
  | zero =>
    obtain ⟨u, hu, hr⟩ := runWith_succ h
    cases hr
    exact ⟨s, rfl, hu⟩
  | succ n ih =>
    obtain ⟨v, hv, hr⟩ := runWith_succ h
    obtain ⟨u, hu, hlast⟩ := ih hr
    exact ⟨u, by simp only [runWith, hv, hu], hlast⟩

/-- The events of a run of `m + n` steps are those of its first `m` and then those of the rest. -/
theorem eventsWith_add {c : CpuCore} {m : Nat} {s u : State} (h : runWith c m s = .next u) (n : Nat) :
    eventsWith c (m + n) s = eventsWith c m s ++ eventsWith c n u := by
  induction m generalizing s with
  | zero =>
    cases h
    simp [eventsWith]
  | succ m ih =>
    obtain ⟨v, hv, hr⟩ := runWith_succ h
    rw [Nat.add_right_comm]
    simp only [eventsWith, hv, ih hr, List.append_assoc]

theorem eventsWith_one (c : CpuCore) (s : State) : eventsWith c 1 s = (eventOf c s).toList := by
  unfold eventsWith
  cases stepWith c s <;> simp [eventsWith]

theorem issued_snoc {c : CpuCore} {n : Nat} {s u : State} (h : runWith c n s = .next u) :
    issued c (n + 1) s = issued c n s ++ stepTransactions c u := by
  rw [issued, eventsWith_add h, transactionsOf_append, eventsWith_one]
  rfl

/-- What holds at the start with no transaction issued, and is kept by each step with its transaction added at the end,
holds at the end of a run with the transactions it issued. -/
theorem runWith_issued_induction {c : CpuCore} {s : State} {P : List Instr → State → Prop} (hstart : P [] s)
    (hstep : ∀ is u t, P is u → stepWith c u = .next t → P (is ++ stepTransactions c u) t) {n : Nat} {t : State}
    (h : runWith c n s = .next t) : P (issued c n s) t := by
  induction n generalizing t with
  | zero =>
    cases h
    exact hstart
  | succ n ih =>
    obtain ⟨u, hu, hlast⟩ := runWith_snoc h
    rw [issued_snoc hu]
    exact hstep _ u t (ih hu) hlast

/-- What one step does to the block: it applies no transaction and leaves the parameters, memory, devices and console,
or it applies one. -/
theorem stepWith_block_cases {c : CpuCore} {s t : State} (h : stepWith c s = .next t) :
    (stepTransactions c s = [] ∧ t.params = s.params ∧ t.mem = s.mem ∧ sameDevices s t ∧ t.console = s.console ∧
        (t.loop = .running → t.diag = s.diag)) ∨
      ∃ i, stepTransactions c s = [i] ∧ t = execNext i (s.setBus .inStep) := by
  obtain ⟨he, rfl⟩ | ⟨he, rfl⟩ | ⟨he, rfl⟩ | ⟨i, he, rfl⟩ := stepWith_event_cases h
  · exact .inl (by simp [stepTransactions, he, transactionsOf, sameDevices])
  · exact .inl (by simp [stepTransactions, he, transactionsOf, sameDevices])
  · exact .inl (by simp [stepTransactions, he, transactionsOf, sameDevices])
  · exact .inr ⟨i, by simp [stepTransactions, he, transactionsOf], rfl⟩

/-- No step changes a parameter of the run (R31). -/
theorem stepWith_params {c : CpuCore} {s t : State} (h : stepWith c s = .next t) : t.params = s.params := by
  obtain ⟨-, hp, -⟩ | ⟨i, -, rfl⟩ := stepWith_block_cases h
  · exact hp
  · exact execNext_params i _

theorem State.dev_eq_of_sameDevices {s t : State} (h : sameDevices s t) (id : DevId) : t.dev id = s.dev id := by
  cases id
  · exact h.1
  · exact h.2

end Machine
end Sys2Proof
end

section
/-! SUPPORT. The statement on the words of well-formed operations (spec/30_encoding.md sections 1 to 3). -/

namespace Sys2Proof

/-- The unmapped ports decode to themselves, the mapped ports to their own operations (R51, R52). -/
theorem decode_encode {i : Instr} (h : i.wf = true) : decode (encode i) = i := by
  cases i with
  | memRd a => exact decode_rdWord a
  | memWr a d => exact decode_wrWord a d
  | inUnmapped port =>
    rw [encode, decode_inWord, BitVec.ofNat_toNat, BitVec.setWidth_eq]
    exact decodePortRead_unmapped (of_decide_eq_true h)
  | outUnmapped port d =>
    rw [encode, decode_outWord, BitVec.ofNat_toNat, BitVec.setWidth_eq]
    exact decodePortWrite_unmapped (of_decide_eq_true h) d
  | inStdio => exact decode_inWord _
  | inInseek => exact decode_inWord _
  | inFsdata => exact decode_inWord _
  | inFsseek => exact decode_inWord _
  | outStdio d => exact decode_outWord _ d
  | outInseek d => exact decode_outWord _ d
  | outFsdata d => exact decode_outWord _ d
  | outFsseek d => exact decode_outWord _ d

/-- Settles O1: a memory word decodes by its fields, a port word by its port, which a well-formed unmapped access shares
with no mapped one. -/
theorem decodeOfEncodeIsIdentity : Obligations.DecodeOfEncodeIsIdentity := fun _ => decode_encode

end Sys2Proof
end

section
/-! SUPPORT. The statement on memory over runs (spec/20_memory.md section 3). -/

namespace Sys2Proof
namespace Machine

/-- Settles O17: a read returns what the run's stores left at the address. -/
theorem memoryIsSequentiallyConsistent : Obligations.MemoryIsSequentiallyConsistent := by
  intro c n s t hwf hrun a
  rw [← runWith_mem_read hwf hrun a]
  exact exec_eq (.memRd a) t

end Machine
end Sys2Proof
end

section
/-! SUPPORT. The statement on the parity of the flags (spec/70_reset_and_hazards.md section 3). -/

namespace Sys2Proof
namespace Machine

@[simp] theorem oddCount_nil (p : Instr → Bool) : oddCount p [] = false := rfl

@[simp] theorem oddCount_append (p : Instr → Bool) (is js : List Instr) :
    oddCount p (is ++ js) = Bool.xor (oddCount p is) (oddCount p js) := by
  unfold oddCount
  rw [List.filter_append, List.length_append, Bool.eq_iff_iff]
  simp only [decide_eq_true_eq, Bool.xor_iff_ne, ne_eq, decide_eq_decide]
  omega

@[simp] theorem oddCount_singleton (p : Instr → Bool) (i : Instr) : oddCount p [i] = p i := by
  cases h : p i <;> simp [oddCount, h]

/-- The parameters are as in `s` and each flag is as in `s`, flipped once by each of the transactions that consults it
(R119). -/
def flagsFlippedBy (s : State) (is : List Instr) (t : State) : Prop :=
  t.params = s.params ∧ ∀ id dir, (t.dev id).flag s.params.toggleMode dir =
    Bool.xor ((s.dev id).flag s.params.toggleMode dir) (oddCount (consultsFlag s.params.toggleMode id dir) is)

theorem flagsFlippedBy_step {c : CpuCore} {s u t : State} {is : List Instr} (hu : flagsFlippedBy s is u)
    (hut : stepWith c u = .next t) : flagsFlippedBy s (is ++ stepTransactions c u) t := by
  obtain ⟨hparams, hflag⟩ := hu
  refine ⟨(stepWith_params hut).trans hparams, fun id dir => ?_⟩
  obtain ⟨hnone, -, -, hdev, -⟩ | ⟨i, hone, rfl⟩ := stepWith_block_cases hut
  · rw [State.dev_eq_of_sameDevices hdev, hflag, hnone, List.append_nil]
  · have hstep := execNext_flag id dir i (u.setBus .inStep)
    rw [State.setBus_params, State.setBus_dev, hparams] at hstep
    rw [hstep, hflag, hone, oddCount_append, oddCount_singleton, Bool.xor_assoc]

/-- Over a run each flag is flipped once by each transaction that consults it (R119). -/
theorem runWith_flagsFlippedBy {c : CpuCore} {n : Nat} {s t : State} (h : runWith c n s = .next t) :
    flagsFlippedBy s (issued c n s) t :=
  runWith_issued_induction (P := flagsFlippedBy s) ⟨rfl, by simp⟩ (fun _ _ _ => flagsFlippedBy_step) h

/-- Settles O34: the flag of a device and direction is its start flipped by the transactions that consult it, and the
bootstrap clears every flag. -/
theorem flagsAreParities : Obligations.FlagsAreParities := by
  refine ⟨fun c n s t id h => ?_, fun cfg s id h => ?_⟩
  · obtain ⟨-, hflag⟩ := runWith_flagsFlippedBy h
    refine ⟨fun hm => ?_, fun hm => ?_⟩
    · rw [hm] at hflag
      exact hflag id .tell
    · rw [hm] at hflag
      exact ⟨hflag id .tell, hflag id .seek⟩
  · rw [bootstrapFrom_dev h]
    exact ⟨rfl, rfl, rfl⟩

end Machine
end Sys2Proof
end

section
/-! SUPPORT. The statement on the debug build (spec/43_seek_tell.md section 3, spec/44_execution_loop.md section 2). -/

namespace Sys2Proof
namespace Machine

/-! ### What two states that differ only in the debug build share -/

/-- Two states differ at most in the log and in `DEBUG_TRACE` exactly when every other field agrees. -/
theorem State.eraseDebug_eq_iff {s t : State} :
    s.eraseDebug = t.eraseDebug ↔
      s.mem = t.mem ∧ s.inDev = t.inDev ∧ s.fsDev = t.fsDev ∧ s.console = t.console ∧ s.loop = t.loop ∧
        s.params.toggleMode = t.params.toggleMode ∧ s.params.outputMode = t.params.outputMode ∧ s.cpu = t.cpu ∧
        s.bus = t.bus ∧ s.reply = t.reply ∧ s.output = t.output ∧ s.exit = t.exit := by
  simp only [State.eraseDebug, State.mk.injEq, Params.mk.injEq, true_and, and_assoc]

theorem State.eraseDebug_setDev (s : State) (id : DevId) (d : Device) :
    (s.setDev id d).eraseDebug = s.eraseDebug.setDev id d := by
  cases id <;> rfl

theorem State.eraseDebug_answer (s : State) (r : Option Byte) : (s.answer r).eraseDebug = s.eraseDebug.answer r := rfl

theorem State.eraseDebug_setBus (s : State) (b : BusPhase) : (s.setBus b).eraseDebug = s.eraseDebug.setBus b := rfl

@[simp] theorem State.eraseDebug_dev (s : State) (id : DevId) : s.eraseDebug.dev id = s.dev id := by
  cases id <;> rfl

@[simp] theorem State.eraseDebug_mem (s : State) : s.eraseDebug.mem = s.mem := rfl
@[simp] theorem State.eraseDebug_inDev (s : State) : s.eraseDebug.inDev = s.inDev := rfl
@[simp] theorem State.eraseDebug_fsDev (s : State) : s.eraseDebug.fsDev = s.fsDev := rfl
@[simp] theorem State.eraseDebug_console (s : State) : s.eraseDebug.console = s.console := rfl
@[simp] theorem State.eraseDebug_toggleMode (s : State) :
    s.eraseDebug.params.toggleMode = s.params.toggleMode := rfl
@[simp] theorem State.eraseDebug_outputMode (s : State) :
    s.eraseDebug.params.outputMode = s.params.outputMode := rfl
@[simp] theorem State.eraseDebug_cpu (s : State) : s.eraseDebug.cpu = s.cpu := rfl
@[simp] theorem State.eraseDebug_bus (s : State) : s.eraseDebug.bus = s.bus := rfl
@[simp] theorem State.eraseDebug_reply (s : State) : s.eraseDebug.reply = s.reply := rfl

theorem traceSeekPort_eraseDebug (id : DevId) (dir : Dir) (b : Byte) (s : State) :
    (traceSeekPort id dir b s).eraseDebug = s.eraseDebug := by
  unfold traceSeekPort
  split <;> rfl

/-! ### Transactions and steps without the debug build -/

/-- A transaction does, but for its records, what it does without the debug build (R80). -/
theorem execNext_eraseDebug (i : Instr) (s : State) :
    (execNext i s).eraseDebug = (execNext i s.eraseDebug).eraseDebug := by
  have htell (id : DevId) : (tellPort id s).eraseDebug = (tellPort id s.eraseDebug).eraseDebug := by
    simp only [tellPort, State.eraseDebug_answer, State.eraseDebug_setDev, traceSeekPort_eraseDebug,
      State.eraseDebug_dev]
    rfl
  have hseek (id : DevId) (d : Byte) : (seekPort id d s).eraseDebug = (seekPort id d s.eraseDebug).eraseDebug := by
    simp only [seekPort, State.eraseDebug_answer, State.eraseDebug_setDev, traceSeekPort_eraseDebug,
      State.eraseDebug_dev]
    rfl
  cases i with
  | inInseek => exact htell .inp
  | inFsseek => exact htell .fs
  | outInseek d => exact hseek .inp d
  | outFsseek d => exact hseek .fs d
  | _ => rfl

/-- The halt does, but for its summary, what it does without the debug build (R87). -/
theorem haltActions_eraseDebug (c : CpuCore) (s : State) :
    (haltActions c s).eraseDebug = (haltActions c s.eraseDebug).eraseDebug := by
  simp [State.eraseDebug_eq_iff, haltOutput]

theorem coreMove_eraseDebug (c : CpuCore) (s : State) :
    (coreMove c s).eraseDebug = (coreMove c s.eraseDebug).eraseDebug := by
  simp only [coreMove, State.eraseDebug_cpu, State.eraseDebug_reply]
  cases c.move s.cpu s.reply <;> rfl

/-- From two states that differ only in the debug build a step goes alike, to two states that differ only so. -/
theorem stepWith_eraseDebug {c : CpuCore} {s s' t : State} (h : s.eraseDebug = s'.eraseDebug)
    (hs : stepWith c s = .next t) : ∃ t', stepWith c s' = .next t' ∧ t'.eraseDebug = t.eraseDebug := by
  obtain ⟨-, -, -, -, hloop, -, -, hcpu, hbus, -⟩ := State.eraseDebug_eq_iff.1 h
  obtain ⟨hl, hcases⟩ := stepWith_cases hs
  rw [hloop] at hl
  rw [hbus, hcpu] at hcases
  obtain ⟨hb, hh, rfl⟩ | ⟨hb, hh, rfl⟩ | ⟨hb, rfl⟩ | ⟨w, hb, hw⟩ := hcases
  · exact ⟨_, stepWith_halt hl hb hh, by rw [haltActions_eraseDebug c s, h, ← haltActions_eraseDebug]⟩
  · exact ⟨_, stepWith_begin hl hb hh, congrArg beginCpuStep h.symm⟩
  · exact ⟨_, stepWith_move hl hb, by rw [coreMove_eraseDebug c s, h, ← coreMove_eraseDebug]⟩
  · refine ⟨_, stepWith_presenting hl hb, ?_⟩
    rw [exec_next_iff.1 hw, execNext_eraseDebug, State.eraseDebug_setBus, ← h, ← State.eraseDebug_setBus,
      ← execNext_eraseDebug]

/-- Settles O38: every step goes alike, so every run does. -/
theorem debugTraceIsInvisible : Obligations.DebugTraceIsInvisible := by
  intro c n
  induction n with
  | zero =>
    intro s s' t h hrun
    cases hrun
    exact ⟨s', rfl, h.symm⟩
  | succ n ih =>
    intro s s' t h hrun
    obtain ⟨u, hu, hr⟩ := runWith_succ hrun
    obtain ⟨u', hu', he⟩ := stepWith_eraseDebug h hu
    obtain ⟨t', ht', he'⟩ := ih u u' t he.symm hr
    exact ⟨t', by simp only [runWith, hu', ht'], he'⟩

end Machine
end Sys2Proof
end

section
/-! SUPPORT. The statements on the block's invariant (spec/10_state.md sections 2 to 4 and 6). -/

namespace Sys2Proof

/-! ### Every word decodes to a well-formed operation (R52) -/

theorem decodePortRead_wf (p : Port) : (decodePortRead p).wf = true := by
  unfold decodePortRead
  split_ifs with h0 h1 h2 h3
  · rfl
  · rfl
  · rfl
  · rfl
  · exact decide_eq_true ((unmapped_iff p).2 ⟨h0, h1, h2, h3⟩)

theorem decodePortWrite_wf (p : Port) (d : Byte) : (decodePortWrite p d).wf = true := by
  unfold decodePortWrite
  split_ifs with h0 h1 h2 h3
  · rfl
  · rfl
  · rfl
  · rfl
  · exact decide_eq_true ((unmapped_iff p).2 ⟨h0, h1, h2, h3⟩)

theorem decode_wf (w : TxWord) : (decode w).wf = true := by
  unfold decode
  split
  · rfl
  · rfl
  · exact decodePortRead_wf _
  · exact decodePortWrite_wf _ _

namespace Machine

/-! ### The parts of the invariant -/

theorem State.inv_iff {s : State} :
    s.inv = true ↔ s.mem.wf = true ∧ (∀ id, (s.dev id).wf id.cap = true) ∧
      (∀ id, (s.dev id).flagsWf s.params.toggleMode = true) ∧
      (∀ r ∈ s.diag, r.wf s.params.debugTrace s.loop = true) ∧ s.haltWf = true := by
  have hdevs (P : DevId → Prop) : (∀ id, P id) ↔ P .inp ∧ P .fs :=
    ⟨fun h => ⟨h .inp, h .fs⟩, fun h id => by cases id; exacts [h.1, h.2]⟩
  simp only [State.inv, Bool.and_eq_true, List.all_eq_true, hdevs, State.dev_inp, State.dev_fs, and_assoc]

/-- A device that keeps its size stays well-formed. -/
theorem Device.wf_of_sameSize {cap : Nat} {d e : Device} (h : d.sameSize e) (hd : d.wf cap = true) :
    e.wf cap = true := by
  obtain ⟨hsize, hlen⟩ := h
  rw [Device.wf_iff] at hd ⊢
  rwa [hsize, hlen]

theorem Device.flagsWf_iff {m : ToggleMode} {d : Device} :
    d.flagsWf m = true ↔
      (m = .shared → d.pendingRd = false ∧ d.pendingWr = false) ∧ (m = .independent → d.pending = false) := by
  cases m <;> simp [Device.flagsWf]

/-- An access of one mode leaves the flags of the other (R74, R75). -/
theorem Device.flagsWf_afterTell (m : ToggleMode) (d : Device) : (d.afterTell m).flagsWf m = d.flagsWf m := by
  cases m <;> rfl

theorem Device.flagsWf_afterSeek (m : ToggleMode) (v : Byte) (d : Device) :
    (d.afterSeek m v).flagsWf m = d.flagsWf m := by
  cases m with
  | shared => rw [Device.afterSeek_shared]; rfl
  | independent => rw [Device.afterSeek_independent]; rfl

theorem Device.flagsWf_of_sameFlags {m : ToggleMode} {d e : Device} (h : d.sameFlags e) :
    e.flagsWf m = d.flagsWf m := by
  obtain ⟨hp, hr, hw⟩ := h
  simp only [Device.flagsWf, hp, hr, hw]

theorem execNext_flagsWf (i : Instr) (s : State) (id : DevId) :
    ((execNext i s).dev id).flagsWf s.params.toggleMode = (s.dev id).flagsWf s.params.toggleMode := by
  cases hr : reachesDevice id i with
  | false => rw [execNext_dev_of_not_reaches hr]
  | true =>
    obtain rfl | ⟨d, rfl⟩ | rfl | ⟨rfl, d, rfl⟩ := reachesDevice_cases hr
    · rw [execNext_tellOp, tellPort_dev, Device.flagsWf_afterTell]
    · rw [execNext_seekOp, seekPort_dev, Device.flagsWf_afterSeek]
    · rw [execNext_dataReadOp]
      exact Device.flagsWf_of_sameFlags (readDataPort_sameFlags id s)
    · exact Device.flagsWf_of_sameFlags (writeDataPort_sameFlags .fs d s)

theorem stepWith_flagsWf {c : CpuCore} {s t : State} (h : stepWith c s = .next t) (id : DevId) :
    (t.dev id).flagsWf t.params.toggleMode = (s.dev id).flagsWf s.params.toggleMode := by
  rw [stepWith_params h]
  obtain ⟨-, -, -, hdev, -⟩ | ⟨i, -, rfl⟩ := stepWith_block_cases h
  · rw [State.dev_eq_of_sameDevices hdev]
  · rw [← State.setBus_dev s .inStep]
    exact execNext_flagsWf i (s.setBus .inStep) id

/-! ### The records (R62) -/

/-- The records a well-formed operation adds are legal in a running or halted state. -/
theorem recordsOf_wf {i : Instr} (hi : i.wf = true) (s : State) :
    ∀ r ∈ recordsOf i s, r.wf s.params.debugTrace s.loop = true := by
  have hseek (id : DevId) (dir : Dir) (b : Byte) :
      ∀ r ∈ seekRecords id dir b s, r.wf s.params.debugTrace s.loop = true := by
    unfold seekRecords
    split <;> simp [DiagRecord.wf, *]
  cases i with
  | inInseek => exact hseek _ _ _
  | inFsseek => exact hseek _ _ _
  | outInseek d => exact hseek _ _ _
  | outFsseek d => exact hseek _ _ _
  | inUnmapped port => simpa [recordsOf, DiagRecord.wf, Instr.wf] using hi
  | outUnmapped port d => simpa [recordsOf, DiagRecord.wf, Instr.wf] using hi
  | _ => simp [recordsOf]

/-- A record that is legal while the controller is Running stays so once it is Halted. -/
theorem DiagRecord.wf_halted {r : DiagRecord} {debug : Bool} {loop : LoopState} (h : r.wf debug loop = true) :
    r.wf debug .halted = true := by
  cases r with
  | haltSummary acc pair =>
    obtain ⟨hdebug, -⟩ := (Bool.and_eq_true_iff (x := debug)).1 h
    simp [DiagRecord.wf, hdebug]
  | _ => exact h

theorem stepWith_diag_wf {c : CpuCore} {s t : State} (hs : ∀ r ∈ s.diag, r.wf s.params.debugTrace s.loop = true)
    (h : stepWith c s = .next t) : ∀ r ∈ t.diag, r.wf t.params.debugTrace t.loop = true := by
  obtain ⟨-, ⟨-, -, rfl⟩ | ⟨-, -, rfl⟩ | ⟨-, rfl⟩ | ⟨w, -, hw⟩⟩ := stepWith_cases h
  · intro r hr
    rw [haltActions_diag, List.mem_append] at hr
    rw [haltActions_params, haltActions_loop]
    obtain hr | hr := hr
    · exact DiagRecord.wf_halted (hs r hr)
    · cases hd : s.params.debugTrace with
      | false => simp [hd] at hr
      | true =>
        simp only [hd, List.mem_singleton] at hr
        rw [hr]
        rfl
  · exact hs
  · simpa using hs
  · obtain rfl := exec_next_iff.1 hw
    intro r hr
    rw [execNext_diag, List.mem_append] at hr
    rw [execNext_params, execNext_loop]
    exact hr.elim (hs r) (recordsOf_wf (decode_wf w) (s.setBus .inStep) r)

/-! ### The output and the end of the run (R86 to R89) -/

theorem State.haltWf_running {s : State} (hl : s.loop = .running) :
    s.haltWf = true ↔ s.output = none ∧ s.exit = none := by
  simp [State.haltWf, hl]

theorem haltOutput_haltActions (c : CpuCore) (s : State) : haltOutput (haltActions c s) = haltOutput s :=
  haltOutput_congr (haltActions_mem c s) (haltActions_console c s) (haltActions_params c s)

theorem stepWith_haltWf {c : CpuCore} {s t : State} (hs : s.haltWf = true) (h : stepWith c s = .next t) :
    t.haltWf = true := by
  obtain ⟨hl, ⟨hb, -, rfl⟩ | ⟨-, -, rfl⟩ | ⟨-, rfl⟩ | ⟨w, -, hw⟩⟩ := stepWith_cases h
  · simp [State.haltWf, haltOutput_haltActions, hb]
  · exact (State.haltWf_running (s := beginCpuStep s) hl).2 ((State.haltWf_running hl).1 hs)
  · rw [State.haltWf_running (by simp [hl])]
    simpa using (State.haltWf_running hl).1 hs
  · rw [exec_next_iff.1 hw, State.haltWf_running (by simp [hl])]
    simpa using (State.haltWf_running hl).1 hs

/-- Settles O51: each part of the invariant is kept by itself. -/
theorem stepKeepsTheInvariant : Obligations.StepKeepsTheInvariant := by
  intro c s t hs h
  obtain ⟨hmem, hdev, hflags, hdiag, hhalt⟩ := State.inv_iff.1 hs
  refine State.inv_iff.2 ⟨(stepWith_mem hmem h).1, fun id => ?_, fun id => ?_, stepWith_diag_wf hdiag h,
    stepWith_haltWf hhalt h⟩
  · exact Device.wf_of_sameSize (stepWith_sameSizes h id) (hdev id)
  · rw [stepWith_flagsWf h, hflags id]

end Machine
end Sys2Proof
end

section
/-! SUPPORT. The statement on the count of CPU steps (spec/44_execution_loop.md section 2). -/

namespace Sys2Proof
namespace Machine

theorem halted_eq_decide_of_counts {c : CpuCore} {age : Nat → Nat} {n : Nat} (hc : c.counts age n) (k : Nat) :
    c.halted k = decide (n ≤ age k) := by
  obtain ⟨-, -, hhalted⟩ := hc
  exact hhalted k

/-- Inside a CPU step the core is not halted: its count is below the number it halts at. -/
theorem not_halted_of_age_lt {c : CpuCore} {age : Nat → Nat} {n k : Nat} (hc : c.counts age n) (h : age k < n) :
    c.halted k = false := by
  rw [halted_eq_decide_of_counts hc, decide_eq_false_iff_not]
  omega

theorem coreMove_ageWf {c : CpuCore} {age : Nat → Nat} {n : Nat} (hc : c.counts age n) {s : State}
    (hl : s.loop = .running) (h : age s.cpu < n) : (coreMove c s).ageWf age n = true := by
  have hh := not_halted_of_age_lt hc h
  obtain ⟨hpresent, hfinish, -⟩ := hc
  unfold coreMove
  split
  next w k hm => simp [State.ageWf, hl, hpresent _ _ _ _ hh hm, h]
  next k hm =>
    have hle : age k ≤ n := by rw [hfinish _ _ _ hh hm]; omega
    simp [State.ageWf, hl, hle]

/-- Settles O52: the count grows only where a CPU step returns, and the halt test finds `n` or a smaller count. -/
theorem stepKeepsTheStepCount : Obligations.StepKeepsTheStepCount := by
  refine fun c age n hc => ⟨fun s t hs h => ?_, fun cfg s hreset h => ?_⟩
  · obtain ⟨hl, ⟨hb, hh, rfl⟩ | ⟨hb, hh, rfl⟩ | ⟨hb, rfl⟩ | ⟨w, hb, hw⟩⟩ := stepWith_cases h
    · have hle : age s.cpu ≤ n := by simpa [State.ageWf, hl, hb] using hs
      have hge : n ≤ age s.cpu := by simpa [halted_eq_decide_of_counts hc] using hh
      have heq : age s.cpu = n := Nat.le_antisymm hle hge
      exact ⟨by simp [State.ageWf, heq], fun _ => ⟨hb, hh, heq, haltActions_cpu c s⟩⟩
    · have hlt : age s.cpu < n := by simpa [halted_eq_decide_of_counts hc] using hh
      refine ⟨?_, by simp [hl]⟩
      simp [State.ageWf, beginCpuStep, hl, hlt]
    · have hlt : age s.cpu < n := by simpa [State.ageWf, hl, hb] using hs
      exact ⟨coreMove_ageWf hc hl hlt, by simp [hl]⟩
    · have hlt : age s.cpu < n := by simpa [State.ageWf, hl, hb] using hs
      obtain rfl := exec_next_iff.1 hw
      exact ⟨by simp [State.ageWf, hl, hlt], by simp [hl]⟩
  · obtain ⟨-, rfl⟩ := bootstrapFrom_next_iff.1 h
    simp [State.ageWf, bootStart, hreset]

end Machine
end Sys2Proof
end

section
/-! SUPPORT. The statements on the transaction word and its presentation (spec/30_encoding.md, spec/44_execution_loop.md
section 1). -/

namespace Sys2Proof

/-! ### The word of a decoded operation (R49) -/

theorem encode_decodePortRead (p : Port) : encode (decodePortRead p) = inWord p.toNat := by
  unfold decodePortRead
  split_ifs with h0 h1 h2 h3
  · rw [h0]; rfl
  · rw [h1]; rfl
  · rw [h2]; rfl
  · rw [h3]; rfl
  · rfl

theorem encode_decodePortWrite (p : Port) (d : Byte) : encode (decodePortWrite p d) = outWord p.toNat d := by
  unfold decodePortWrite
  split_ifs with h0 h1 h2 h3
  · rw [h0]; rfl
  · rw [h1]; rfl
  · rw [h2]; rfl
  · rw [h3]; rfl
  · rfl

/-- The effective port, presented in 16 bits, is the presented value's low byte (R47). -/
theorem maskPort_toNat_mod (p : PresentedPort) : (maskPort p).toNat % 65536 = p.toNat % 256 := by
  rw [Nat.mod_eq_of_lt ((port_toNat_lt _).trans (by decide)), maskPort_toNat]

/-- Settles O2: the word of the decoded operation is assembled from the fields that the decoder read. -/
theorem encodeOfDecodeClearsIgnoredBits : Obligations.EncodeOfDecodeClearsIgnoredBits := by
  refine fun w => ⟨decode_wf w, ?_⟩
  cases hs : TxWord.space w <;> cases hd : TxWord.dir w <;> simp only [decode, hs, hd]
  · simp [encode, rdWord]
  · simp [encode, wrWord]
  · simp [encode_decodePortRead, inWord, maskPort_toNat_mod, ← TxWord.presented_eq_addr]
  · simp [encode_decodePortWrite, outWord, maskPort_toNat_mod, ← TxWord.presented_eq_addr]

/-! ### Words that differ only in ignored bits (R49) -/

/-- The decoder reads only the bits that are not ignored. -/
theorem decode_congr {v w : TxWord} (hspace : TxWord.space v = TxWord.space w) (hdir : TxWord.dir v = TxWord.dir w)
    (haddr : TxWord.space w = false → TxWord.addr v = TxWord.addr w)
    (hport : TxWord.space w = true → (TxWord.addr v).toNat % 256 = (TxWord.addr w).toNat % 256)
    (hdata : TxWord.dir w = true → TxWord.data v = TxWord.data w) : decode v = decode w := by
  have hmask : TxWord.space w = true → maskPort (TxWord.presented v) = maskPort (TxWord.presented w) := fun h => by
    apply BitVec.eq_of_toNat_eq
    rw [maskPort_toNat, maskPort_toNat]
    exact hport h
  unfold decode
  rw [hspace, hdir]
  cases hs : TxWord.space w <;> cases hd : TxWord.dir w
  · simp only [haddr hs]
  · simp only [haddr hs, hdata hd]
  · simp only [hmask hs]
  · simp only [hmask hs, hdata hd]

namespace Machine

/-- A step at a presented word depends on the word only through the decoded operation (R51). -/
theorem stepWith_presenting_congr (c : CpuCore) (s : State) {v w : TxWord} (h : decode v = decode w) :
    stepWith c (s.setBus (.presenting v)) = stepWith c (s.setBus (.presenting w)) := by
  cases hl : s.loop with
  | halted =>
    rw [stepWith_halted c (s := s.setBus (.presenting v)) hl, stepWith_halted c (s := s.setBus (.presenting w)) hl]
  | running =>
    rw [stepWith_presenting (s := s.setBus (.presenting v)) hl rfl,
      stepWith_presenting (s := s.setBus (.presenting w)) hl rfl, h]
    rfl

/-- Settles O3: the words decode alike, and a step reads nothing else of them. -/
theorem ignoredBitsNeverMatter : Obligations.IgnoredBitsNeverMatter := by
  intro w v hspace hdir haddr hport hdata
  have h := decode_congr hspace hdir haddr hport hdata
  exact ⟨h, fun c s => stepWith_presenting_congr c s h⟩

/-- Settles O7: the step at a presented word is the decoded operation's meaning. -/
theorem presentedWordRuns : Obligations.PresentedWordRuns := fun c s w hl hb => by
  rw [step_eq, stepWith_presenting hl hb, stepWith_presenting hl hb, exec_eq]
  exact ⟨rfl, rfl⟩

theorem decodeTableWord_eq_some {nbits w : Nat} {i : Instr} (h : decodeTableWord nbits w = some i) :
    decode (BitVec.ofNat Config.wordW (tableWord nbits w)) = i := by
  unfold decodeTableWord decodeNumber at h
  split_ifs at h with hlt
  exact Option.some.inj h

/-- Settles O8: the table word is presented, and decodes to the operation. -/
theorem fetchWordRuns : Obligations.FetchWordRuns := fun s nbits w i h => by
  rw [step_eq, State.withFetchWord, stepWith_presenting rfl rfl, decodeTableWord_eq_some h, exec_eq]
  rfl

end Machine

/-- Settles O5: each word is evaluated. -/
theorem vectorWordsDecode : Obligations.VectorWordsDecode := by
  unfold Obligations.VectorWordsDecode
  decide

/-! ### The presented value of a port (R47, R50) -/

theorem byte_ofNat_mod (p : Nat) : BitVec.ofNat 8 (p % 256) = BitVec.ofNat 8 p := by
  apply BitVec.eq_of_toNat_eq
  simp

/-- Settles O6: the decoder reads a presented value only modulo 256, and an unmapped port stands in the operation. -/
theorem presentedPortIsMasked : Obligations.PresentedPortIsMasked := by
  refine fun p d => ⟨?_, ?_, fun q h hp => ?_⟩
  · rw [decode_inWord, decode_inWord, byte_ofNat_mod]
  · rw [decode_outWord, decode_outWord, byte_ofNat_mod]
  · have hunmapped : Config.firstUnmappedPort ≤ BitVec.ofNat 8 p := by
      rw [BitVec.le_def, BitVec.toNat_ofNat]
      exact hp
    rw [decode_inWord, decode_inWord, decodePortRead_unmapped hunmapped] at h
    rw [decodePortRead_unmapped (unmapped_of_decodePortRead h.symm), Instr.inUnmapped.injEq] at h
    simpa using congrArg BitVec.toNat h.symm

/-! ### The opcode table (30_encoding.md section 3) -/

/-- The bits that some row of the table looks at: `S`, `W` and the low byte of `A`. -/
def rowBits : TxWord := TxWord.assemble true true ((BitVec.allOnes 8).setWidth 16) 0

theorem rowBits_and_mask : ∀ r ∈ opcodeTable, rowBits &&& r.mask = r.mask := by decide

/-- The bits the table looks at, apart from the others: the word of the effective port itself. -/
theorem and_rowBits (w : TxWord) :
    w &&& rowBits =
      TxWord.assemble (TxWord.space w) (TxWord.dir w) ((maskPort (TxWord.presented w)).setWidth 16) 0 := by
  apply BitVec.eq_of_getLsbD_eq
  intro i (hi : i < 26)
  simp only [rowBits, BitVec.getLsbD_and, TxWord.getLsbD_assemble, BitVec.getLsbD_setWidth, BitVec.getLsbD_allOnes]
  obtain h | h | h | rfl | rfl : i < 8 ∨ (8 ≤ i ∧ i < 16) ∨ (16 ≤ i ∧ i < 24) ∨ i = 24 ∨ i = 25 := by omega
  · simp [h]
  · have h0 : ¬ i < 8 := by omega
    have h1 : i - 8 < 8 := by omega
    have h2 : i - 8 < 16 := by omega
    have h3 : 8 + (i - 8) = i := by omega
    simp [h0, h1, h2, h3, maskPort, TxWord.presented]
  · have h0 : ¬ i < 8 := by omega
    have h1 : ¬ i - 8 < 8 := by omega
    have h2 : i - 8 < 16 := by omega
    simp [h0, h1, h2, maskPort]
  · simp [TxWord.dir]
  · simp [TxWord.space]

/-- A row covers a word exactly when it covers the bits the table looks at. -/
theorem covers_and_rowBits {r : OpcodeRow} (h : r ∈ opcodeTable) (w : TxWord) :
    r.covers (w &&& rowBits) = r.covers w := by
  rw [OpcodeRow.covers, OpcodeRow.covers, BitVec.and_assoc, rowBits_and_mask r h]

/-- The rows of one space and one direction. -/
def rowsFor (space dir : Bool) : List OpcodeRow :=
  opcodeTable.filter fun r => TxWord.space r.pattern == space && TxWord.dir r.pattern == dir

theorem mask_space_dir : ∀ r ∈ opcodeTable, TxWord.space r.mask = true ∧ TxWord.dir r.mask = true := by decide

/-- A row covers only words of its own space and direction. -/
theorem space_dir_of_covers {r : OpcodeRow} (h : r ∈ opcodeTable) {w : TxWord} (hc : r.covers w = true) :
    TxWord.space r.pattern = TxWord.space w ∧ TxWord.dir r.pattern = TxWord.dir w := by
  obtain ⟨hspace, hdir⟩ := mask_space_dir r h
  rw [OpcodeRow.covers, beq_iff_eq] at hc
  unfold TxWord.space TxWord.dir at *
  rw [← hc, BitVec.getLsbD_and, BitVec.getLsbD_and, hspace, hdir]
  simp only [Bool.and_true, and_self]

/-- The rows that cover a word, among those of its space and direction and by the bits the table looks at. -/
theorem filter_covers (w : TxWord) :
    (opcodeTable.filter fun r => r.covers w) =
      (rowsFor (TxWord.space w) (TxWord.dir w)).filter fun r =>
        r.covers (TxWord.assemble (TxWord.space w) (TxWord.dir w) ((maskPort (TxWord.presented w)).setWidth 16) 0) := by
  rw [rowsFor, List.filter_filter, ← and_rowBits]
  refine List.filter_congr fun r h => ?_
  rw [covers_and_rowBits h]
  cases hc : r.covers w with
  | false => rw [Bool.false_and]
  | true => simp only [space_dir_of_covers h hc, beq_self_eq_true, Bool.and_self]

theorem rowsFor_memRead : rowsFor false false = [⟨0x0000000, 0x3000000, "MEM_RD"⟩] := by decide
theorem rowsFor_memWrite : rowsFor false true = [⟨0x1000000, 0x3000000, "MEM_WR"⟩] := by decide
theorem rowsFor_portRead : rowsFor true false = opcodeRowsRead.drop 2 := by decide
theorem rowsFor_portWrite : rowsFor true true = opcodeRowsWrite := by decide

/-- The mnemonics of the rows that cover the word of a space, a direction and an effective port. -/
def coveringMnemonics (rows : List OpcodeRow) (space dir : Bool) (p : Port) : List String :=
  (rows.filter fun r => r.covers (TxWord.assemble space dir (p.setWidth 16) 0)).map (·.mnemonic)

theorem coveringMnemonics_memRead (p : Port) :
    coveringMnemonics [⟨0x0000000, 0x3000000, "MEM_RD"⟩] false false p = ["MEM_RD"] := by
  revert p
  decide

theorem coveringMnemonics_memWrite (p : Port) :
    coveringMnemonics [⟨0x1000000, 0x3000000, "MEM_WR"⟩] false true p = ["MEM_WR"] := by
  revert p
  decide

/-- The effective port decides the row of a read, port by port. -/
theorem coveringMnemonics_portRead (p : Port) :
    coveringMnemonics (opcodeRowsRead.drop 2) true false p = [(decodePortRead p).mnemonic] := by
  revert p
  decide

/-- The effective port decides the row of a write, port by port. -/
theorem coveringMnemonics_portWrite (p : Port) :
    coveringMnemonics opcodeRowsWrite true true p = [(decodePortWrite p 0).mnemonic] := by
  revert p
  decide

theorem mnemonic_decodePortWrite (p : Port) (d : Byte) :
    (decodePortWrite p d).mnemonic = (decodePortWrite p 0).mnemonic := by
  unfold decodePortWrite
  split_ifs <;> rfl

/-- Settles O4: a row looks only at the space, the direction and the effective port, and of the rows of a space and a
direction exactly one covers each effective port. -/
theorem oneTableRowCoversEachWord : Obligations.OneTableRowCoversEachWord := by
  intro w
  rw [filter_covers]
  unfold decode
  cases TxWord.space w <;> cases TxWord.dir w
  · rw [rowsFor_memRead]
    exact coveringMnemonics_memRead _
  · rw [rowsFor_memWrite]
    exact coveringMnemonics_memWrite _
  · rw [rowsFor_portRead]
    exact coveringMnemonics_portRead _
  · rw [rowsFor_portWrite]
    exact (coveringMnemonics_portWrite _).trans (congrArg (fun m => [m]) (mnemonic_decodePortWrite _ _).symm)

end Sys2Proof
end

section
/-! SUPPORT. The statements on one transaction and on its repetition (spec/20_memory.md section 2, spec/10_state.md
section 3), and on the canonical form of memory (spec/10_state.md section 2). -/

namespace Sys2Proof
namespace Machine

/-! ### The frame of a transaction (R20) -/

theorem consoleByte_eq_none {i : Instr} (h : ∀ d, i ≠ .outStdio d) : consoleByte i = none := by
  cases i with
  | outStdio d => exact absurd rfl (h d)
  | _ => rfl

/-- Only an unmapped access, or a seek-port access under `DEBUG_TRACE`, records (R60, R61, R80). -/
theorem recordsOf_eq_nil {i : Instr} {s : State} (hr : ∀ p, i ≠ .inUnmapped p) (hw : ∀ p d, i ≠ .outUnmapped p d)
    (hseek : s.params.debugTrace = true → ∀ id, isTellOf id i = false ∧ isSeekOf id i = false) :
    recordsOf i s = [] := by
  have hsilent (id : DevId) (dir : Dir) (b : Byte) (hid : isTellOf id i = true ∨ isSeekOf id i = true) :
      seekRecords id dir b s = [] := by
    refine if_neg fun hdebug => ?_
    obtain ⟨htell, hseek⟩ := hseek hdebug id
    simp [htell, hseek] at hid
  cases i with
  | inUnmapped port => exact absurd rfl (hr port)
  | outUnmapped port d => exact absurd rfl (hw port d)
  | inInseek => exact hsilent .inp _ _ (.inl rfl)
  | inFsseek => exact hsilent .fs _ _ (.inl rfl)
  | outInseek d => exact hsilent .inp _ _ (.inr rfl)
  | outFsseek d => exact hsilent .fs _ _ (.inr rfl)
  | _ => rfl

/-- Settles O11: the frame of a transaction, part by part. -/
theorem transactionsChangeOnlyTheirParts : Obligations.TransactionsChangeOnlyTheirParts := by
  intro i s
  refine ⟨execNext i s, exec_eq i s, execNext_sameControl i s, fun h => execNext_mem h s,
    fun _ h => execNext_dev_of_not_reaches h s, fun h => ?_, fun hr hw hseek => ?_⟩
  · rw [execNext_console, consoleByte_eq_none h]
    exact List.append_nil _
  · rw [execNext_diag, recordsOf_eq_nil hr hw hseek, List.append_nil]

/-! ### Repeated transactions (20_memory.md section 2) -/

/-- Writing a byte a second time in a row changes nothing, in a canonical memory. -/
theorem Memory.write_write_same {m : Memory} (h : m.wf = true) {a : Nat} (ha : a < Config.memSize) (v : Byte) :
    (m.write a v).write a v = m.write a v := by
  have hself := Memory.write_read_self (Memory.wf_write h ha v) a
  rwa [Memory.read_write_same h] at hself

/-- Settles O13: a repeated memory access finds the byte it left, an access at end-of-device only answers, and an
unmapped access only records and answers. -/
theorem repeatsThatChangeNothing : Obligations.RepeatsThatChangeNothing := by
  refine ⟨fun a s t h => ?_, fun a d s t hwf h => ?_, fun id s t hpast h => ?_, fun d s t hpast h => ?_,
    fun p s t h => ?_, fun p d s t h => ?_⟩
  · obtain rfl := exec_next_iff.1 h
    exact exec_eq (.memRd a) _
  · obtain rfl := exec_next_iff.1 h
    rw [exec_eq]
    simp only [execNext, State.answer_mem, State.setMem_mem, Memory.write_write_same hwf (addr_toNat_lt a)]
    rfl
  · rw [exec_dataReadOp, readDataPort_eq_answer_of_past hpast] at h
    obtain rfl := Host.Outcome.next.inj h
    rw [exec_dataReadOp, readDataPort_eq_answer_of_past (by simpa using hpast)]
    rfl
  · obtain rfl : t = s.answer none :=
      (exec_next_iff.1 h).trans (writeDataPort_eq_answer_of_past (id := .fs) hpast d)
    exact exec_next_iff.2 (writeDataPort_eq_answer_of_past (id := .fs) (s := s.answer none) hpast d).symm
  · obtain rfl := exec_next_iff.1 h
    exact exec_eq (.inUnmapped p) _
  · obtain rfl := exec_next_iff.1 h
    exact exec_eq (.outUnmapped p d) _

/-- Settles O22: the append is the transaction's meaning. -/
theorem stdioWriteAppendsToConsole : Obligations.StdioWriteAppendsToConsole := fun d s => exec_eq (.outStdio d) s

/-! ### The canonical form is unique (log 5) -/

/-- The check of the first entry: its place, its byte, and the rest above it. -/
theorem Memory.wfFrom_cons {lo a : Nat} {v : Byte} {m : Memory} :
    Memory.wfFrom lo ((a, v) :: m) = true ↔
      lo ≤ a ∧ a < Config.memSize ∧ v ≠ Config.unlistedByte ∧ m.wfFrom (a + 1) = true := by
  simp [Memory.wfFrom, and_assoc]

/-- The first entry of a canonical memory stands where the first byte differs from an unlisted one, so two canonical
memories that read alike have their first entries in common. -/
theorem Memory.head_le_of_read_eq {lo a b : Nat} {v w : Byte} {m m' : Memory}
    (h : Memory.wfFrom lo ((a, v) :: m) = true) (h' : Memory.wfFrom lo ((b, w) :: m') = true)
    (hread : ∀ x, x < Config.memSize → Memory.read ((a, v) :: m) x = Memory.read ((b, w) :: m') x) : b ≤ a := by
  obtain ⟨-, ha, hv, -⟩ := Memory.wfFrom_cons.1 h
  obtain ⟨-, hb, hw, hm'⟩ := Memory.wfFrom_cons.1 h'
  by_contra hlt
  have hbelow : Memory.wfFrom b ((b, w) :: m') = true := Memory.wfFrom_cons.2 ⟨Nat.le_refl b, hb, hw, hm'⟩
  have hunlisted := hread a ha
  rw [Memory.read_of_lt hbelow (by omega)] at hunlisted
  exact hv (by simpa [Memory.read] using hunlisted)

theorem Memory.eq_of_read_eq {lo : Nat} {m m' : Memory} (h : m.wfFrom lo = true) (h' : m'.wfFrom lo = true)
    (hread : ∀ x, x < Config.memSize → m.read x = m'.read x) : m = m' := by
  induction m generalizing lo m' with
  | nil =>
    cases m' with
    | nil => rfl
    | cons y rest' =>
      obtain ⟨b, w⟩ := y
      obtain ⟨-, hb, hw, -⟩ := Memory.wfFrom_cons.1 h'
      exact absurd (by simpa [Memory.read] using (hread b hb).symm) hw
  | cons x rest ih =>
    obtain ⟨a, v⟩ := x
    obtain ⟨-, ha, hv, hrest⟩ := Memory.wfFrom_cons.1 h
    cases m' with
    | nil => exact absurd (by simpa [Memory.read] using hread a ha) hv
    | cons y rest' =>
      obtain ⟨b, w⟩ := y
      obtain ⟨-, -, -, hrest'⟩ := Memory.wfFrom_cons.1 h'
      obtain rfl : a = b := Nat.le_antisymm
        (Memory.head_le_of_read_eq h' h fun x hx => (hread x hx).symm) (Memory.head_le_of_read_eq h h' hread)
      obtain rfl : v = w := by simpa [Memory.read] using hread a ha
      rw [ih hrest hrest' fun x hx => ?_]
      obtain rfl | hne := eq_or_ne x a
      · rw [Memory.read_of_lt hrest (Nat.lt_succ_self _), Memory.read_of_lt hrest' (Nat.lt_succ_self _)]
      · simpa [Memory.read, hne] using hread x hx

/-- Settles O16: the first entry is the first byte that is not an unlisted one, and so on down the list. -/
theorem canonicalMemoriesAreEqualWhenTheyReadAlike : Obligations.CanonicalMemoriesAreEqualWhenTheyReadAlike := by
  refine fun m m' h h' hread => Memory.eq_of_read_eq h h' fun x hx => ?_
  have haddr := hread (BitVec.ofNat 16 x)
  rwa [BitVec.toNat_ofNat, Nat.mod_eq_of_lt (show x < 2 ^ 16 from hx)] at haddr

end Machine
end Sys2Proof
end

section
/-! SUPPORT. The statements on sequences of seek, tell and data accesses (spec/43_seek_tell.md section 4,
spec/42_data_port.md section 3, spec/70_reset_and_hazards.md section 3). -/

namespace Sys2Proof
namespace Machine

/-! ### Sequences as next states (R39, R55) -/

/-- The state after the transactions, each applied on the state that the one before left. -/
def execNexts (is : List Instr) (s : State) : State := is.foldl (fun u i => execNext i u) s

@[simp] theorem execNexts_nil (s : State) : execNexts [] s = s := rfl
@[simp] theorem execNexts_cons (i : Instr) (is : List Instr) (s : State) :
    execNexts (i :: is) s = execNexts is (execNext i s) := rfl

theorem execNexts_append (is js : List Instr) (s : State) :
    execNexts (is ++ js) s = execNexts js (execNexts is s) := List.foldl_append

theorem execSeq_eq (is : List Instr) (s : State) : execSeq is s = .next (execNexts is s) := by
  induction is generalizing s with
  | nil => rfl
  | cons i is ih => simp only [execSeq, exec_eq, ih, execNexts_cons]

theorem repliesOf_nil (s : State) : repliesOf [] s = [] := rfl

theorem repliesOf_cons (i : Instr) (is : List Instr) (s : State) :
    repliesOf (i :: is) s = (execNext i s).reply.toList ++ repliesOf is (execNext i s) := by
  simp only [repliesOf, exec_eq]

theorem sameControl_trans {s t u : State} (hst : sameControl s t) (htu : sameControl t u) : sameControl s u := by
  obtain ⟨hloop, hparams, hcpu, hbus, hout, hexit⟩ := hst
  obtain ⟨hloop', hparams', hcpu', hbus', hout', hexit'⟩ := htu
  exact ⟨hloop'.trans hloop, hparams'.trans hparams, hcpu'.trans hcpu, hbus'.trans hbus, hout'.trans hout,
    hexit'.trans hexit⟩

theorem execNexts_sameControl (is : List Instr) (s : State) : sameControl s (execNexts is s) := by
  induction is generalizing s with
  | nil => exact ⟨rfl, rfl, rfl, rfl, rfl, rfl⟩
  | cons i is ih => exact sameControl_trans (execNext_sameControl i s) (ih (execNext i s))

@[simp] theorem execNexts_params (is : List Instr) (s : State) : (execNexts is s).params = s.params := by
  obtain ⟨-, hparams, -⟩ := execNexts_sameControl is s
  exact hparams

/-! ### Two halves in a row (R72, R73, R81) -/

theorem Device.afterSeek_flag (m : ToggleMode) (v : Byte) (d : Device) :
    (d.afterSeek m v).flag m .seek = !d.flag m .seek := by
  rw [Device.flag_afterSeek]
  simp

theorem Device.afterTell_flag (m : ToggleMode) (d : Device) :
    (d.afterTell m).flag m .tell = !d.flag m .tell := by
  rw [Device.flag_afterTell]
  simp

/-- Two tells toggle their flag twice. -/
theorem Device.afterTell_afterTell (m : ToggleMode) (d : Device) : (d.afterTell m).afterTell m = d := by
  cases m <;> simp [Device.afterTell_shared, Device.afterTell_independent]

/-- A seek of two halves from the high phase changes the cursor only. -/
theorem Device.afterSeek_afterSeek {m : ToggleMode} {d : Device} (h : d.flag m .seek = false) (hi lo : Byte) :
    (d.afterSeek m hi).afterSeek m lo = { d with cursor := joinHalves hi lo } := by
  have hlow : (d.afterSeek m hi).flag m .seek = true := by rw [Device.afterSeek_flag, h, Bool.not_false]
  have hcursor : ((d.afterSeek m hi).afterSeek m lo).cursor = joinHalves hi lo := by
    rw [Device.afterSeek_cursor_of_low hlow, Device.afterSeek_cursor_of_high h, seekLow_seekHigh]
  rw [← hcursor]
  cases m with
  | shared =>
    rw [Device.afterSeek_shared lo, Device.afterSeek_shared hi]
    simp
  | independent =>
    rw [Device.afterSeek_independent lo, Device.afterSeek_independent hi]
    simp

theorem Device.flag_withCursor (m : ToggleMode) (dir : Dir) (d : Device) (k : Word16) :
    ({ d with cursor := k } : Device).flag m dir = d.flag m dir := by
  cases m <;> cases dir <;> rfl

theorem Device.wf_withCursor {cap : Nat} {d : Device} (h : d.wf cap = true) (k : Word16) :
    ({ d with cursor := k } : Device).wf cap = true := h

/-- SEEK from the high phase leaves the device with the cursor at `k` and otherwise as it was (R55, R81). -/
theorem execNexts_seekSeq_dev {id : DevId} {s : State} (h : (s.dev id).flag s.params.toggleMode .seek = false)
    (k : Word16) : (execNexts (seekSeq id k) s).dev id = { s.dev id with cursor := k } := by
  simp only [seekSeq, execNexts_cons, execNexts_nil, execNext_seekOp, seekPort_dev, seekPort_params,
    Device.afterSeek_afterSeek h, joinHalves_halves]

theorem execNexts_seekSeq_dev_of_ne {id id' : DevId} (h : id' ≠ id) (k : Word16) (s : State) :
    (execNexts (seekSeq id k) s).dev id' = s.dev id' := by
  simp only [seekSeq, execNexts_cons, execNexts_nil, execNext_seekOp, seekPort_dev_of_ne _ _ h]

theorem execNexts_tellSeq_dev (id : DevId) (s : State) : (execNexts (tellSeq id) s).dev id = s.dev id := by
  simp only [tellSeq, execNexts_cons, execNexts_nil, execNext_tellOp, tellPort_dev, tellPort_params,
    Device.afterTell_afterTell]

theorem execNexts_tellSeq_dev_of_ne {id id' : DevId} (h : id' ≠ id) (s : State) :
    (execNexts (tellSeq id) s).dev id' = s.dev id' := by
  simp only [tellSeq, execNexts_cons, execNexts_nil, execNext_tellOp, tellPort_dev_of_ne _ h]

/-! ### The round trip, and a seek followed by a data access (R81, R82) -/

/-- Settles O29: the tells leave the device, and the seek puts the cursor where it was. -/
theorem tellThenSeekRestoresTheDevice : Obligations.TellThenSeekRestoresTheDevice := by
  intro id s htell hseek
  have hdev := execNexts_tellSeq_dev id s
  refine ⟨highByte (s.dev id).cursor, lowByte (s.dev id).cursor, repliesOf_tellSeq htell, highByte_toNat _,
    lowByte_toNat _, execNexts (seekSeq id (s.dev id).cursor) (execNexts (tellSeq id) s), ?_, ?_, fun id' h => ?_,
    ?_, ?_, ?_⟩
  · rw [← execNexts_append]
    exact execSeq_eq _ s
  · rw [execNexts_seekSeq_dev (by rw [hdev, execNexts_params, hseek]), hdev]
  · rw [execNexts_seekSeq_dev_of_ne h, execNexts_tellSeq_dev_of_ne h]
  · simp [seekSeq, tellSeq, execNext_seekOp, execNext_tellOp]
  · simp [seekSeq, tellSeq, execNext_seekOp, execNext_tellOp]
  · exact sameControl_trans (execNexts_sameControl _ s) (execNexts_sameControl _ _)

/-- A seek to `k` inside the content and a data read return the byte at `k` and leave the cursor behind it (R82). -/
theorem readDataPort_after_seekSeq {cap : Nat} {id : DevId} {s : State} {k : Word16} (hwf : (s.dev id).wf cap = true)
    (hflag : (s.dev id).flag s.params.toggleMode .seek = false) (hk : k.toNat < (s.dev id).size.toNat) :
    (readDataPort id (execNexts (seekSeq id k) s)).reply = (s.dev id).buffer[k.toNat]? ∧
      ((readDataPort id (execNexts (seekSeq id k) s)).dev id).cursor.toNat = k.toNat + 1 := by
  have hdev := execNexts_seekSeq_dev hflag k
  have hwf' : ((execNexts (seekSeq id k) s).dev id).wf cap = true := hdev ▸ Device.wf_withCursor hwf k
  obtain ⟨hreply, -, hcursor⟩ := readDataPort_inside hwf' (by rw [hdev]; exact hk)
  rw [hdev] at hreply hcursor
  exact ⟨hreply, hcursor⟩

/-- Settles O30: the seek leaves the cursor at `k`, and the data read follows it. -/
theorem seekThenReadReadsAtK : Obligations.SeekThenReadReadsAtK := by
  intro id k s hwf hflag
  have hdev := execNexts_seekSeq_dev hflag k
  refine ⟨_, _, execSeq_eq _ s, by rw [hdev], by rw [hdev, Device.flag_withCursor, hflag], exec_dataReadOp id _,
    readDataPort_after_seekSeq hwf hflag, fun hk => ?_⟩
  have hpast := readDataPort_past (id := id) (s := execNexts (seekSeq id k) s) (by rw [hdev]; exact hk)
  rwa [hdev] at hpast

/-- What a data read after a seek leaves of the device: its content. -/
theorem sameContent_read_after_seekSeq {id : DevId} {s : State} {k : Word16}
    (hflag : (s.dev id).flag s.params.toggleMode .seek = false) :
    (s.dev id).sameContent ((readDataPort id (execNexts (seekSeq id k) s)).dev id) := by
  have hread := readDataPort_sameContent id (execNexts (seekSeq id k) s)
  rwa [execNexts_seekSeq_dev hflag] at hread

/-- Settles O24: the write stores at `k`, where the first seek left the cursor, and the second seek and the read find
the byte there. -/
theorem fsWriteIsReadBack : Obligations.FsWriteIsReadBack := by
  intro k v s hwf hk hflag
  let sought : Device := { s.fsDev with cursor := k }
  have hin : sought.inContent = true := (Device.inContent_iff sought).2 hk
  have hsought : sought.wf 65535 = true := Device.wf_withCursor hwf k
  generalize hu : writeDataPort .fs v (execNexts (seekSeq .fs k) s) = u
  have hdev : u.dev .fs = sought.afterWrite v := by
    rw [← hu, writeDataPort_dev, execNexts_seekSeq_dev (id := .fs) hflag]
    rfl
  have hflag' : (u.dev .fs).flag u.params.toggleMode .seek = false := by
    rw [hdev, Device.afterWrite_flag, ← hu, writeDataPort_params, execNexts_params]
    exact (Device.flag_withCursor _ _ s.fsDev k).trans hflag
  obtain ⟨hreply, hcursor⟩ := readDataPort_after_seekSeq (cap := 65535) (k := k)
    (hdev ▸ Device.wf_afterWrite hsought v) hflag' (by rw [hdev, Device.afterWrite_size]; exact hk)
  obtain ⟨hbuffer, hsize⟩ := sameContent_read_after_seekSeq (k := k) hflag'
  rw [hdev] at hreply hbuffer hsize
  refine ⟨readDataPort .fs (execNexts (seekSeq .fs k) u), ?_, ?_, hcursor, ?_, fun j hj => ?_⟩
  · rw [execSeq_eq, ← hu, execNexts_append, execNexts_append, execNexts_append]
    rfl
  · rw [hreply]
    exact Device.afterWrite_getElem?_cursor hsought hin v
  · exact hsize.trans (Device.afterWrite_size v sought)
  · exact (congrArg (·[j]?) hbuffer).trans (Device.afterWrite_getElem?_of_ne sought v hj)

/-! ### Switched directions (70_reset_and_hazards.md section 3) -/

theorem lowByte_seekHigh (v : Byte) : lowByte (seekHigh v) = 0 := by
  apply BitVec.eq_of_toNat_eq
  rw [lowByte_toNat, seekHigh_toNat, Nat.mul_mod_left]
  rfl

/-- Settles O31: in Shared mode the second access finds the flag that the first one set, whatever its direction. -/
theorem switchingDirectionGivesTheRulesResult : Obligations.SwitchingDirectionGivesTheRulesResult := by
  intro id v s hm hflag
  have htold : (execNexts [tellOp id, seekOp id v] s).dev id =
      ((s.dev id).afterTell .shared).afterSeek .shared v := by
    simp [execNext_tellOp, execNext_seekOp, hm]
  have hsought : (execNexts [seekOp id v, tellOp id] s).dev id =
      ((s.dev id).afterSeek .shared v).afterTell .shared := by
    simp [execNext_tellOp, execNext_seekOp, hm]
  have hreply : (execNexts [seekOp id v, tellOp id] s).reply =
      some (((s.dev id).afterSeek .shared v).tellByte .shared) := by
    simp [execNext_tellOp, execNext_seekOp, hm]
  have hhigh : (s.dev id).flag .shared .seek = false := hflag
  have hlowAfterTell : ((s.dev id).afterTell .shared).flag .shared .seek = true := by
    rw [Device.flag_afterTell, hhigh]
    rfl
  have hlowAfterSeek : ((s.dev id).afterSeek .shared v).flag .shared .tell = true := by
    rw [Device.flag_afterSeek, Device.flag, hflag]
    rfl
  refine ⟨⟨_, execSeq_eq _ s, ?_, ?_⟩, ⟨_, execSeq_eq _ s, ?_, ?_, ?_⟩⟩
  · rw [htold, Device.afterSeek_cursor_of_low hlowAfterTell, seekLow_toNat, Device.afterTell_cursor]
  · rw [htold, Device.afterSeek_shared, Device.afterTell_shared, hflag]
    rfl
  · rw [hreply, (Device.tell_low hlowAfterSeek).1, Device.afterSeek_cursor_of_high hhigh, lowByte_seekHigh]
  · rw [hsought, Device.afterTell_cursor, Device.afterSeek_cursor_of_high hhigh, seekHigh_toNat]
  · rw [hsought, Device.afterTell_shared, Device.afterSeek_shared, hflag]
    rfl

/-! ### A transaction between two halves of a seek (70_reset_and_hazards.md section 3) -/

/-- The state after the first half `h` of a seek, the transaction `i` and the second half `l`. -/
def seekAround (id : DevId) (h : Byte) (i : Instr) (l : Byte) (s : State) : State :=
  seekPort id l (execNext i (seekPort id h s))

theorem execSeq_seekAround (id : DevId) (h : Byte) (i : Instr) (l : Byte) (s : State) :
    execSeq [seekOp id h, i, seekOp id l] s = .next (seekAround id h i l s) := by
  simp only [execSeq_eq, execNexts_cons, execNexts_nil, execNext_seekOp, seekAround]

/-- With a transaction between the halves that consults no flag of the device, the second half is OR-ed into the cursor
as that transaction left it, and the flag ends false. -/
theorem seekAround_dev {id : DevId} {h l : Byte} {i : Instr} {s : State} {e : Device}
    (hflag : (s.dev id).flag s.params.toggleMode .seek = false)
    (hi : consultsFlag s.params.toggleMode id .seek i = false) (he : (execNext i (seekPort id h s)).dev id = e) :
    ((seekAround id h i l s).dev id).flag s.params.toggleMode .seek = false ∧
      ((seekAround id h i l s).dev id).cursor = seekLow e.cursor l ∧
      e.sameContent ((seekAround id h i l s).dev id) := by
  have hlow : e.flag s.params.toggleMode .seek = true := by
    have hmiddle := execNext_flag id .seek i (seekPort id h s)
    rw [he, seekPort_params, hi, seekPort_dev, Device.afterSeek_flag, hflag] at hmiddle
    simpa using hmiddle
  simp only [seekAround, seekPort_dev, execNext_params, seekPort_params, he]
  exact ⟨by rw [Device.afterSeek_flag, hlow, Bool.not_true], Device.afterSeek_cursor_of_low hlow l,
    Device.afterSeek_buffer _ l e, Device.afterSeek_size _ l e⟩

/-- OR-ing the second half into the cursor of the first adds it. -/
theorem seekLow_seekHigh_toNat (h l : Byte) : (seekLow (seekHigh h) l).toNat = h.toNat * 256 + l.toNat := by
  rw [seekLow_toNat_of_low_zero (by rw [seekHigh_toNat, Nat.mul_mod_left]), seekHigh_toNat]

/-- A data write moves the cursor as a data read does (R64, R65). -/
theorem Device.afterWrite_cursor (v : Byte) (d : Device) : (d.afterWrite v).cursor = d.afterRead.cursor := by
  cases h : d.inContent with
  | true => rw [Device.afterWrite_inside h, Device.afterRead_inside h]
  | false => rw [Device.afterWrite_past h, Device.afterRead_past h]

/-- The cursor of a seek with a data access between the halves: the first half is moved on by 1 inside the content. -/
theorem seekLow_afterRead_toNat {h : Byte} {e : Device} (hcursor : e.cursor = seekHigh h) (l : Byte) :
    (seekLow e.afterRead.cursor l).toNat =
      if h.toNat * 256 < e.size.toNat then (h.toNat * 256 + 1) ||| l.toNat else h.toNat * 256 + l.toNat := by
  have hat : e.cursor.toNat = h.toNat * 256 := by rw [hcursor, seekHigh_toNat]
  rw [← hat]
  cases hin : e.inContent with
  | true =>
    rw [if_pos ((Device.inContent_iff e).1 hin), Device.afterRead_inside hin, seekLow_toNat,
      Device.cursor_succ_toNat hin]
  | false =>
    have hpast := (Device.inContent_eq_false_iff e).1 hin
    rw [if_neg hpast.not_gt, Device.afterRead_past hin, hcursor, seekLow_seekHigh_toNat, seekHigh_toNat]

/-- Settles O32: the data read moves the cursor of the first half on by 1 inside the content, and leaves it past it. -/
theorem dataReadBetweenSeekHalves : Obligations.DataReadBetweenSeekHalves := by
  intro id h l s hwf hflag
  have hconsults : consultsFlag s.params.toggleMode id .seek (dataReadOp id) = false := by
    cases s.params.toggleMode <;> simp [consultsFlag, isTellOf_dataReadOp, isSeekOf_dataReadOp]
  obtain ⟨hend, hcursor, -⟩ := seekAround_dev (h := h) (l := l) hflag hconsults rfl
  refine ⟨_, execSeq_seekAround id h (dataReadOp id) l s, hend, ?_⟩
  rw [hcursor, execNext_dataReadOp, readDataPort_dev, seekPort_dev,
    seekLow_afterRead_toNat (Device.afterSeek_cursor_of_high hflag h), Device.afterSeek_size]

/-- Settles O56: the data write is OR-ed into as the data read is, and a transaction of another port leaves the device
between the halves. -/
theorem otherAccessesBetweenSeekHalves : Obligations.OtherAccessesBetweenSeekHalves := by
  refine ⟨fun h v l s hwf hflag => ?_, fun id i h l s hreach hflag => ?_⟩
  · have hconsults : consultsFlag s.params.toggleMode .fs .seek (.outFsdata v) = false := by
      cases s.params.toggleMode <;> simp [consultsFlag, isTellOf, isSeekOf, tellOp]
    generalize he : s.fsDev.afterSeek s.params.toggleMode h = e
    have hmiddle : (execNext (.outFsdata v) (seekPort .fs h s)).dev .fs = e.afterWrite v := by simp [execNext, he]
    obtain ⟨hend, hcursor, hbuffer, hsize⟩ := seekAround_dev (id := .fs) (h := h) (l := l) hflag hconsults hmiddle
    rw [State.dev_fs] at hend hcursor hbuffer hsize
    have hhigh : e.cursor = seekHigh h := by rw [← he, Device.afterSeek_cursor_of_high hflag]
    have hat : e.cursor.toNat = h.toNat * 256 := by rw [hhigh, seekHigh_toNat]
    have hsizee : e.size = s.fsDev.size := by rw [← he, Device.afterSeek_size]
    have hbuffere : e.buffer = s.fsDev.buffer := by rw [← he, Device.afterSeek_buffer]
    refine ⟨_, execSeq_seekAround .fs h (.outFsdata v) l s, hend, by rw [hsize, Device.afterWrite_size, hsizee], ?_⟩
    rw [hcursor, hbuffer, Device.afterWrite_cursor, seekLow_afterRead_toNat hhigh, ← hbuffere, ← hsizee]
    refine ⟨fun hlt => ⟨if_pos hlt, ?_, ?_⟩, fun hpast => ⟨if_neg hpast.not_gt, ?_⟩⟩
    · rw [← hat] at hlt ⊢
      exact Device.afterWrite_getElem?_cursor (he ▸ Device.wf_afterSeek hwf _ h) ((Device.inContent_iff e).2 hlt) v
    · exact fun j hj => Device.afterWrite_getElem?_of_ne e v (hat ▸ hj)
    · rw [Device.afterWrite_past ((Device.inContent_eq_false_iff e).2 (hat ▸ hpast))]
  · obtain ⟨hend, hcursor, hbuffer, hsize⟩ := seekAround_dev (h := h) (l := l) hflag
      (consultsFlag_of_not_reaches hreach _ _) (execNext_dev_of_not_reaches hreach _)
    rw [seekPort_dev] at hcursor hbuffer hsize
    rw [Device.afterSeek_cursor_of_high hflag] at hcursor
    exact ⟨_, execSeq_seekAround id h i l s, hend, by rw [hcursor, seekLow_seekHigh_toNat],
      hbuffer.trans (Device.afterSeek_buffer _ h _), hsize.trans (Device.afterSeek_size _ h _)⟩

/-! ### A data access between two halves of a tell (70_reset_and_hazards.md section 3) -/

theorem Device.inContent_afterTell (m : ToggleMode) (d : Device) : (d.afterTell m).inContent = d.inContent := by
  simp [Device.inContent]

theorem Device.dataByte_afterTell (m : ToggleMode) (d : Device) : (d.afterTell m).dataByte = d.dataByte := by
  simp [Device.dataByte, Device.inContent_afterTell]

/-- Settles O33: the read moves the cursor on between the halves, and each half is of the cursor it finds. -/
theorem tornTellReadsTwoCursors : Obligations.TornTellReadsTwoCursors := by
  intro id s hwf hflag hlt
  have hin : (s.dev id).inContent = true := (Device.inContent_iff _).2 hlt
  generalize hd : (s.dev id).afterTell s.params.toggleMode = d
  have hlow : d.afterRead.flag s.params.toggleMode .tell = true := by
    rw [Device.afterRead_flag, ← hd, Device.afterTell_flag, hflag, Bool.not_false]
  have hind : d.inContent = true := by rw [← hd, Device.inContent_afterTell, hin]
  have hcursor : d.cursor = (s.dev id).cursor := by rw [← hd, Device.afterTell_cursor]
  refine ⟨(s.dev id).tellByte s.params.toggleMode, d.dataByte, d.afterRead.tellByte s.params.toggleMode, ?_,
    Device.tellByte_toNat_of_high hflag, ?_, ?_⟩
  · simp [repliesOf_cons, repliesOf_nil, execNext_tellOp, execNext_dataReadOp, hd]
  · rw [Device.tellByte_toNat_of_low hlow, Device.afterRead_inside hind, Device.cursor_succ_toNat hind, hcursor]
  · rw [Device.getElem?_cursor hwf hin, ← hd, Device.dataByte_afterTell]

/-- Settles O57: the write moves the cursor on between the halves, and each half is of the cursor it finds. -/
theorem writeBetweenTellHalves : Obligations.WriteBetweenTellHalves := by
  intro v s hwf hflag
  generalize hd : s.fsDev.afterTell s.params.toggleMode = d
  have hlow : (d.afterWrite v).flag s.params.toggleMode .tell = true := by
    rw [Device.afterWrite_flag, ← hd, Device.afterTell_flag, hflag, Bool.not_false]
  have hcursor : d.cursor = s.fsDev.cursor := by rw [← hd, Device.afterTell_cursor]
  have hsize : d.size = s.fsDev.size := by rw [← hd, Device.afterTell_size]
  have hwfd : d.wf 65535 = true := hd ▸ Device.wf_afterTell hwf _
  have hdev : (execNexts [.inFsseek, .outFsdata v, .inFsseek] s).fsDev =
      (d.afterWrite v).afterTell s.params.toggleMode := by
    simp [execNext, hd]
  refine ⟨s.fsDev.tellByte s.params.toggleMode, (d.afterWrite v).tellByte s.params.toggleMode, _, ?_, execSeq_eq _ s,
    Device.tellByte_toNat_of_high hflag, by rw [hdev, Device.afterTell_flag, hlow, Bool.not_true], fun hlt => ?_,
    fun hpast => ?_⟩
  · simp [repliesOf_cons, repliesOf_nil, execNext, hd]
  · rw [← hcursor, ← hsize, ← Device.inContent_iff] at hlt
    rw [Device.tellByte_toNat_of_low hlow, hdev, Device.afterTell_buffer, ← hcursor,
      Device.afterWrite_getElem?_cursor hwfd hlt, Device.afterWrite_inside hlt, Device.cursor_succ_toNat hlt]
    exact ⟨rfl, rfl⟩
  · rw [← hcursor, ← hsize, ← Device.inContent_eq_false_iff] at hpast
    rw [Device.tellByte_toNat_of_low hlow, hdev, Device.afterTell_buffer, Device.afterWrite_past hpast, hcursor, ← hd,
      Device.afterTell_buffer]
    exact ⟨rfl, rfl⟩

end Machine
end Sys2Proof
end

section
/-! SUPPORT. The statements on the controller and on the end of a run (spec/44_execution_loop.md sections 1 and 2,
spec/41_port_dispatch.md section 3). -/

namespace Sys2Proof
namespace Machine

/-! ### What ends a run (R63, R86) -/

/-- Settles O10: a running state has a next state, and a halted one stops with a fault. -/
theorem onlyHaltEndsARun : Obligations.OnlyHaltEndsARun := by
  intro c n
  induction n with
  | zero => exact fun s => ⟨nofun, nofun⟩
  | succ n ih =>
    intro s
    cases hl : s.loop with
    | halted =>
      simp only [runWith, stepWith_halted c hl]
      exact ⟨nofun, fun _ _ => ⟨0, s, Nat.succ_pos n, rfl, hl⟩⟩
    | running =>
      obtain ⟨u, hu⟩ := stepWith_running_next c hl
      obtain ⟨hrefused, hfault⟩ := ih u
      simp only [runWith, hu]
      refine ⟨hrefused, fun r hr => ?_⟩
      obtain ⟨m, t, hm, hrun, ht⟩ := hfault r hr
      exact ⟨m + 1, t, Nat.succ_lt_succ hm, by simp only [runWith, hu, hrun], ht⟩

/-! ### What no run changes (R31) -/

theorem stepWith_inDev_buffer {c : CpuCore} {s t : State} (h : stepWith c s = .next t) :
    t.inDev.buffer = s.inDev.buffer := by
  obtain ⟨-, -, -, hdev, -⟩ | ⟨i, -, rfl⟩ := stepWith_block_cases h
  · rw [hdev.1]
  · exact execNext_inDev_buffer i _

theorem runWith_params {c : CpuCore} {n : Nat} {s t : State} (h : runWith c n s = .next t) : t.params = s.params :=
  runWith_keeps (P := fun u => u.params = s.params) (fun _ _ hu hv => (stepWith_params hv).trans hu) rfl h

/-- Settles O36: no step changes either. -/
theorem inputContentNeverChanges : Obligations.InputContentNeverChanges := by
  refine fun c n s t h => ⟨?_, runWith_params h⟩
  exact runWith_keeps (P := fun u => u.inDev.buffer = s.inDev.buffer)
    (fun _ _ hu hv => (stepWith_inDev_buffer hv).trans hu) rfl h

/-! ### The halted test (R85, R87, R88) -/

theorem haltOutput_console {s : State} (h : s.params.outputMode = .console) : haltOutput s = s.console := by
  simp [haltOutput, h]

theorem haltOutput_memDump {s : State} (h : s.params.outputMode = .memDump) : haltOutput s = s.mem.dump := by
  simp [haltOutput, h]

/-- Settles O39: the step is the halt, or the start of a CPU step. -/
theorem haltTestDecides : Obligations.HaltTestDecides := by
  refine fun c s hl hb => ⟨fun hh => ?_, stepWith_begin hl hb⟩
  refine ⟨_, _, stepWith_halt hl hb hh, haltActions_loop c s, haltActions_output c s, haltActions_exit c s,
    haltOutput_console, fun hm => ?_, ?_, haltActions_mem c s, ⟨haltActions_inDev c s, haltActions_fsDev c s⟩,
    haltActions_console c s, haltActions_params c s, haltActions_cpu c s⟩
  · rw [haltOutput_memDump hm]
    exact ⟨Memory.dump_length s.mem, fun a => Memory.dump_getElem? s.mem (addr_toNat_lt a)⟩
  · rw [haltActions_diag]
    cases s.params.debugTrace <;> rfl

/-! ### Scenario D -/

/-- What Scenario D says of the state `t` after the first `k` steps from `s`: while Running at most `n` CPU steps and no
flush, in Halted exactly `n` and one flush. -/
def scenarioD (c : CpuCore) (n : Nat) (s : State) (k : Nat) (t : State) : Prop :=
  (t.loop = .running →
    cpuSteps c k s ≤ n ∧ (eventsWith c k s).count .halt = 0 ∧ t.output = s.output) ∧
  (t.loop = .halted →
    cpuSteps c k s = n ∧ (eventsWith c k s).count .halt = 1 ∧ t.output = some (haltOutput t) ∧ t.exit = some .success)

/-- The events of one step more. -/
theorem eventsWith_snoc {c : CpuCore} {k : Nat} {s u : State} {e : Event} (h : runWith c k s = .next u)
    (he : eventOf c u = some e) : eventsWith c (k + 1) s = eventsWith c k s ++ [e] := by
  rw [eventsWith_add h, eventsWith_one, he]
  rfl

/-- A CPU step begins only where the test finds fewer than `n` of them, and the halt where it finds `n`. -/
theorem scenarioD_step {c : CpuCore} {n : Nat} {s u t : State} {k : Nat} (hhalts : c.haltsAfter s n)
    (hrun : runWith c k s = .next u) (hu : scenarioD c n s k u) (hut : stepWith c u = .next t) :
    scenarioD c n s (k + 1) t := by
  obtain ⟨hl, hcases⟩ := stepWith_cases hut
  obtain ⟨hcount, hflush, hout⟩ := hu.1 hl
  unfold cpuSteps at hcount
  unfold scenarioD cpuSteps
  obtain ⟨hb, hh, rfl⟩ | ⟨hb, hh, rfl⟩ | ⟨hb, rfl⟩ | ⟨w, hb, hw⟩ := hcases
  · have htest : (eventsWith c k s).count .cpuStep = n := of_decide_eq_true ((hhalts k u hrun hl hb).symm.trans hh)
    rw [eventsWith_snoc hrun (e := .halt) (by simp [eventOf, hl, hb, hh])]
    simp [htest, hflush, haltOutput_haltActions]
  · have htest : (eventsWith c k s).count .cpuStep ≠ n := of_decide_eq_false ((hhalts k u hrun hl hb).symm.trans hh)
    rw [eventsWith_snoc hrun (e := .cpuStep) (by simp [eventOf, hl, hb, hh])]
    have hnext : (eventsWith c k s).count .cpuStep + 1 ≤ n := by omega
    simp [hl, hflush, hout, hnext]
  · rw [eventsWith_snoc hrun (e := .coreMove) (by simp [eventOf, hl, hb])]
    simp [hl, hcount, hflush, hout]
  · obtain rfl := exec_next_iff.1 hw
    rw [eventsWith_snoc hrun (e := .transaction (decode w)) (by simp [eventOf, hl, hb])]
    simp [hl, hcount, hflush, hout]

theorem runWith_scenarioD {c : CpuCore} {n : Nat} {s t : State} {k : Nat} (hl : s.loop = .running)
    (hhalts : c.haltsAfter s n) (h : runWith c k s = .next t) : scenarioD c n s k t := by
  induction k generalizing t with
  | zero =>
    cases h
    simp [scenarioD, cpuSteps, eventsWith, hl]
  | succ k ih =>
    obtain ⟨u, hu, hlast⟩ := runWith_snoc h
    exact scenarioD_step hhalts hu (ih hu) hlast

/-- Settles O42: Scenario D holds at the start and is kept by every step of the run. -/
theorem exactlyNStepsThenOneFlush : Obligations.ExactlyNStepsThenOneFlush := by
  intro c n s t k hl _ hhalts hrun
  obtain ⟨hrunning, hhalted⟩ := runWith_scenarioD hl hhalts hrun
  refine ⟨fun ht => ?_, hrunning⟩
  obtain ⟨hcount, hflush, hout, -⟩ := hhalted ht
  exact ⟨hcount, hflush, hout⟩

theorem cpuSteps_add {c : CpuCore} {m : Nat} {s u : State} (h : runWith c m s = .next u) (n : Nat) :
    cpuSteps c (m + n) s = cpuSteps c m s + cpuSteps c n u := by
  rw [cpuSteps, eventsWith_add h, List.count_append]
  rfl

/-- From every place between two CPU steps of such a run Halted is reached: the test halts, or a CPU step is made,
returns, and leaves fewer to make. -/
theorem halted_reached {c : CpuCore} {n : Nat} {s u : State} {k : Nat} (hl : s.loop = .running)
    (hhalts : c.haltsAfter s n) (hreturn : c.stepsReturn s) (hrun : runWith c k s = .next u)
    (hb : u.bus = .between) : ∃ k' t, runWith c k' s = .next t ∧ t.loop = .halted := by
  induction hd : n - cpuSteps c k s using Nat.strong_induction_on generalizing k u with
  | _ d ih =>
  cases hu : u.loop with
  | halted => exact ⟨k, u, hrun, hu⟩
  | running =>
    cases hh : c.halted u.cpu with
    | true =>
      refine ⟨k + 1, haltActions c u, ?_, haltActions_loop c u⟩
      rw [runWith_add hrun, runWith, stepWith_halt hu hb hh]
      rfl
    | false =>
      have hstep : runWith c (k + 1) s = .next (beginCpuStep u) := by
        rw [runWith_add hrun, runWith, stepWith_begin hu hb hh]
        rfl
      obtain ⟨m, v, hm, hv⟩ := hreturn (k + 1) (beginCpuStep u) hstep hu
      have hrun' : runWith c (k + 1 + m) s = .next v := by rw [runWith_add hstep, hm]
      have hne : cpuSteps c k s ≠ n := of_decide_eq_false ((hhalts k u hrun hu hb).symm.trans hh)
      have hle : cpuSteps c k s ≤ n := ((runWith_scenarioD hl hhalts hrun).1 hu).1
      have hone : cpuSteps c 1 u = 1 := by
        simp [cpuSteps, eventsWith_one, eventOf, hu, hb, hh]
      refine ih _ ?_ hrun' hv rfl
      rw [cpuSteps_add hstep, cpuSteps_add hrun, hone]
      omega

/-- Settles O43: Halted is reached, and Scenario D says what stands there. -/
theorem aCoreThatHaltsEndsItsRun : Obligations.ACoreThatHaltsEndsItsRun := by
  intro c n s hl hb hhalts hreturn
  obtain ⟨k, t, hrun, ht⟩ := halted_reached (k := 0) hl hhalts hreturn rfl hb
  obtain ⟨-, hhalted⟩ := runWith_scenarioD hl hhalts hrun
  obtain ⟨-, -, hout, hexit⟩ := hhalted ht
  exact ⟨k, t, hrun, ht, hout, hexit⟩

/-! ### What the host may hold before halt (spec D6) -/

/-- Nothing is flushed, or the controller is Halted with the output of the halt. -/
def flushedOnlyAtHalt (t : State) : Prop :=
  t.output = none ∨ t.loop = .halted ∧ t.output = some (haltOutput t)

theorem flushedOnlyAtHalt_step {c : CpuCore} {s t : State} (hs : flushedOnlyAtHalt s) (h : stepWith c s = .next t) :
    flushedOnlyAtHalt t := by
  obtain ⟨hl, hcases⟩ := stepWith_cases h
  have hnone : s.output = none := hs.resolve_right (by simp [hl])
  obtain ⟨-, -, rfl⟩ | ⟨-, -, rfl⟩ | ⟨-, rfl⟩ | ⟨w, -, hw⟩ := hcases
  · refine .inr ⟨haltActions_loop c s, ?_⟩
    rw [haltActions_output, haltOutput_haltActions]
  · exact .inl hnone
  · exact .inl ((coreMove_output c s).trans hnone)
  · obtain rfl := exec_next_iff.1 hw
    exact .inl ((execNext_output _ _).trans hnone)

/-- Settles O44: the output is the one of the halt, in Console mode the console, which only grows, and in MemDump mode
the host holds nothing before. -/
theorem hostHoldsAPrefixOfTheOutput : Obligations.HostHoldsAPrefixOfTheOutput := by
  intro c n s t bs out hnone hhold hrun hout
  obtain hnone' | ⟨-, hhalt⟩ := runWith_keeps (fun _ _ => flushedOnlyAtHalt_step) (.inl hnone) hrun
  · rw [hnone'] at hout
    cases hout
  · obtain rfl : out = haltOutput t := Option.some.inj (hout.symm.trans hhalt)
    unfold State.hostMayHold at hhold
    rw [hnone] at hhold
    cases hm : s.params.outputMode with
    | console =>
      rw [haltOutput_console (by rw [runWith_params hrun, hm]), runWith_console hrun]
      simp only [hm, List.isPrefixOf_iff_prefix] at hhold
      exact hhold.trans (List.prefix_append _ _)
    | memDump =>
      simp only [hm, List.isEmpty_iff] at hhold
      exact hhold ▸ List.nil_prefix

end Machine
end Sys2Proof
end

section
/-! SUPPORT. The statements on what the bootstrap leaves and refuses (spec/70_reset_and_hazards.md section 1,
spec/10_state.md section 6). -/

namespace Sys2Proof
namespace Machine

/-- A byte the list holds is the list's byte there. -/
theorem some_getD_eq_getElem? {bytes : List Byte} {i : Nat} (h : i < bytes.length) :
    some (bytes.getD i 0) = bytes[i]? := by
  simp [h]

/-- Settles O46: the memory after reset steps 1 and 2 is not changed by the later steps. -/
theorem memoryAfterReset : Obligations.MemoryAfterReset := by
  intro s0 t cfg a h
  obtain ⟨hfit, -⟩ := bootstrapFrom_next_iff.1 h
  obtain ⟨-, hread⟩ := bootMemory_spec hfit
  rw [bootstrapFrom_mem h]
  refine ⟨fun hle hlt => ?_, fun hlt hprog => ?_, bootMemory_read_uncovered hfit⟩
  · rw [hread a.toNat (addr_toNat_lt a), if_pos ⟨hle, hlt⟩, some_getD_eq_getElem? (by omega)]
  · rw [hread a.toNat (addr_toNat_lt a), if_neg (by omega), if_pos hlt, some_getD_eq_getElem? hlt]

/-- Settles O47: reset step 6 writes each of these fields, and it is the last. -/
theorem controllerAfterReset : Obligations.ControllerAfterReset := by
  intro s0 t cfg h
  obtain ⟨-, rfl⟩ := bootstrapFrom_next_iff.1 h
  exact ⟨rfl, rfl, rfl, rfl, rfl, rfl, rfl, rfl, rfl⟩

/-- The bootstrap is refused with the image that does not fit (R110). -/
theorem bootstrapFrom_refused_iff {s : State} {cfg : RunConfig} {i : Image} :
    bootstrapFrom s cfg = .refused (.imageDoesNotFit i) ↔ misfit cfg = some i := by
  unfold bootstrapFrom
  cases misfit cfg <;> simp

/-- Settles O48: the bootstrap has a run exactly when no image is a misfit, and else names one. -/
theorem bootstrapRefusesWhatDoesNotFit : Obligations.BootstrapRefusesWhatDoesNotFit := by
  refine fun s0 cfg => ⟨?_, ?_⟩
  · simp only [bootstrapFrom_next_iff, exists_and_left, exists_eq, and_true, misfit_eq_none]
  · simp only [bootstrapFrom_refused_iff, ← Option.ne_none_iff_exists', ne_eq, misfit_eq_none]
    omega

/-- Each device is loaded with as many bytes as its size says, within its capacity (R106, R107, R110). -/
theorem bootContent_length_le {cfg : RunConfig} (hfit : misfit cfg = none) (id : DevId) :
    (bootContent cfg id).length ≤ id.cap := by
  obtain ⟨-, -, hfs⟩ := misfit_eq_none.1 hfit
  cases id with
  | inp => exact List.length_take_le _ _
  | fs => exact hfs

theorem bootstrapFrom_dev_wf {s₀ s : State} {cfg : RunConfig} (h : bootstrapFrom s₀ cfg = .next s) (id : DevId) :
    (s.dev id).wf id.cap = true := by
  obtain ⟨hfit, -⟩ := bootstrapFrom_next_iff.1 h
  obtain ⟨-, -, hfs⟩ := misfit_eq_none.1 hfit
  have hsize : (s.dev id).size.toNat = (bootContent cfg id).length := by
    rw [bootstrapFrom_dev h, Device.clearFlags_size, Device.loadContent_size_toNat (bootContent_length_lt hfs id)]
  refine Device.wf_iff.2 ⟨?_, hsize ▸ bootContent_length_le hfit id⟩
  rw [hsize, bootstrapFrom_dev h]
  rfl

/-- Settles O50: memory is loaded in canonical form, the devices with their content and cleared flags, and nothing is
recorded or flushed yet. -/
theorem bootstrapMeetsTheInvariant : Obligations.BootstrapMeetsTheInvariant := by
  intro cfg t h
  obtain ⟨hfit, -⟩ := bootstrapFrom_next_iff.1 h
  obtain ⟨hmem, -⟩ := bootMemory_spec hfit
  obtain ⟨-, hdiag, hloop, -, -, -, hout, hexit, -⟩ := controllerAfterReset State.reset t cfg h
  refine State.inv_iff.2 ⟨bootstrapFrom_mem h ▸ hmem, bootstrapFrom_dev_wf h, fun id => ?_, by simp [hdiag],
    (State.haltWf_running hloop).2 ⟨hout, hexit⟩⟩
  rw [bootstrapFrom_dev h]
  exact Device.flagsWf_iff.2 ⟨fun _ => ⟨rfl, rfl⟩, fun _ => rfl⟩

/-- Settles O49: the reset state is the bootstrap of the default run. -/
theorem resetMeetsTheInvariant : Obligations.ResetMeetsTheInvariant :=
  bootstrapMeetsTheInvariant Config.defaultRun State.reset bootstrap_default

end Machine
end Sys2Proof
end

section
/-! SUPPORT. The statements on the block's state over runs (spec/20_memory.md section 3, spec/42_data_port.md
section 3). -/

namespace Sys2Proof
namespace Machine

/-! ### The block of a state (R10), without the controller and the core -/

/-- The state with the controller, the core, its interface and the outputs at fixed values: what is left is the block
that transactions read and write. -/
def State.block (s : State) : State :=
  { s with loop := .running, cpu := 0, bus := .between, reply := none, output := none, exit := none }

theorem State.block_eq_iff {s t : State} :
    s.block = t.block ↔
      s.mem = t.mem ∧ s.inDev = t.inDev ∧ s.fsDev = t.fsDev ∧ s.console = t.console ∧ s.diag = t.diag ∧
        s.params = t.params := by
  simp [State.block]

/-- A transaction reads and writes the block only, and its answer (R20, R46). -/
theorem execNext_block (i : Instr) (s : State) : (execNext i s).block = (execNext i s.block).block := by
  have htell (id : DevId) : (tellPort id s).block = (tellPort id s.block).block := by
    simp only [tellPort, traceSeekPort_eq]
    cases id <;> rfl
  have hseek (id : DevId) (d : Byte) : (seekPort id d s).block = (seekPort id d s.block).block := by
    simp only [seekPort, traceSeekPort_eq]
    cases id <;> rfl
  cases i with
  | inInseek => exact htell .inp
  | inFsseek => exact htell .fs
  | outInseek d => exact hseek .inp d
  | outFsseek d => exact hseek .fs d
  | _ => rfl

/-- The parameters, memory, the devices, the console and, while Running, the log of `t` are those of the block that `u`
holds. -/
def holdsBlockOf (u t : State) : Prop :=
  t.params = u.params ∧ t.mem = u.mem ∧ sameDevices u t ∧ t.console = u.console ∧ (t.loop = .running → t.diag = u.diag)

theorem holdsBlockOf_iff_of_running {u t : State} (hl : t.loop = .running) : holdsBlockOf u t ↔ t.block = u.block := by
  rw [State.block_eq_iff, holdsBlockOf, sameDevices]
  tauto

theorem holdsBlockOf_step {c : CpuCore} {x s t : State} (hs : holdsBlockOf x s) (h : stepWith c s = .next t) :
    holdsBlockOf (execNexts (stepTransactions c s) x) t := by
  obtain ⟨hl, -⟩ := stepWith_cases h
  obtain ⟨hnone, hparams', hmem', hdev', hconsole', hdiag'⟩ | ⟨i, hone, rfl⟩ := stepWith_block_cases h
  · obtain ⟨hparams, hmem, ⟨hin, hfs⟩, hconsole, hdiag⟩ := hs
    rw [hnone, execNexts_nil]
    exact ⟨hparams'.trans hparams, hmem'.trans hmem, ⟨hdev'.1.trans hin, hdev'.2.trans hfs⟩,
      hconsole'.trans hconsole, fun ht => (hdiag' ht).trans (hdiag hl)⟩
  · have hblock : s.block = x.block := (holdsBlockOf_iff_of_running hl).1 hs
    rw [hone, execNexts_cons, execNexts_nil, holdsBlockOf_iff_of_running (by simp [hl]), execNext_block i x, ← hblock,
      execNext_block]
    rfl

/-- Settles O53: every step adds its own transaction at the end of those issued, and nothing else changes the block. -/
theorem runsApplyTheirTransactionsInOrder : Obligations.RunsApplyTheirTransactionsInOrder := by
  intro c n s t h
  have hblock : holdsBlockOf (execNexts (issued c n s) s) t :=
    runWith_issued_induction (P := fun is u => holdsBlockOf (execNexts is s) u)
      ⟨rfl, rfl, ⟨rfl, rfl⟩, rfl, fun _ => rfl⟩
      (fun is u v hu huv => execNexts_append is _ s ▸ holdsBlockOf_step hu huv) h
  obtain ⟨-, hmem, hdev, hconsole, hdiag⟩ := hblock
  exact ⟨_, execSeq_eq _ s, hmem, hdev, hconsole, hdiag⟩

/-! ### The content of FS over a run (R39, R69) -/

/-- The transaction the next step applies, if it applies one, with the state it meets. -/
def stepApplied (c : CpuCore) (s : State) : List (Instr × State) := (stepTransactions c s).map fun i => (i, s)

theorem applied_succ {c : CpuCore} {s u : State} (h : stepWith c s = .next u) (n : Nat) :
    applied c (n + 1) s = stepApplied c s ++ applied c n u := by
  simp only [applied, h, stepApplied, stepTransactions]

/-- The latest store of two lists in a row is the second list's, or else the first's (R39). -/
theorem latestFsStore_append (j : Nat) (ps qs : List (Instr × State)) :
    latestFsStore j (ps ++ qs) = (latestFsStore j qs).or (latestFsStore j ps) := by
  simp [latestFsStore, List.getLast?_append]

/-- After a step each byte of FS is the one that the step's own transaction stores there, or else as before. -/
theorem stepWith_fsDev_getElem? {c : CpuCore} {s t : State} (hwf : s.fsDev.wf 65535 = true)
    (h : stepWith c s = .next t) (j : Nat) :
    t.fsDev.buffer[j]? = (latestFsStore j (stepApplied c s)).or s.fsDev.buffer[j]? := by
  obtain ⟨hnone, -, -, hdev, -⟩ | ⟨i, hone, rfl⟩ := stepWith_block_cases h
  · rw [hdev.2, stepApplied, hnone]
    rfl
  · have hstored := execNext_fsDev_getElem? (s := s.setBus .inStep) hwf i j
    have hmeets : storesInFs j (i, s.setBus .inStep) = storesInFs j (i, s) := rfl
    rw [hstored, hmeets, stepApplied, hone, State.setBus_fsDev]
    cases hi : storesInFs j (i, s) <;> simp [latestFsStore, hi]

/-- No run changes the size of FS, nor that it holds as many bytes as its size says (R17). -/
theorem runWith_fsDev_wf {c : CpuCore} {n : Nat} {s t : State} (hwf : s.fsDev.wf 65535 = true)
    (h : runWith c n s = .next t) : t.fsDev.wf 65535 = true ∧ t.fsDev.size = s.fsDev.size := by
  have hsize := sizesNeverChange c n s t .fs h
  exact ⟨Device.wf_of_sameSize hsize hwf, hsize.1⟩

theorem runWith_fsDev_getElem? {c : CpuCore} {n : Nat} {s t : State} (hwf : s.fsDev.wf 65535 = true)
    (h : runWith c n s = .next t) (j : Nat) :
    t.fsDev.buffer[j]? = (latestFsStore j (applied c n s)).or s.fsDev.buffer[j]? := by
  induction n generalizing s with
  | zero =>
    cases h
    rfl
  | succ n ih =>
    obtain ⟨u, hu, hr⟩ := runWith_succ h
    have hwfu : u.fsDev.wf 65535 = true := Device.wf_of_sameSize (stepWith_sameSizes hu .fs) hwf
    rw [ih hwfu hr, stepWith_fsDev_getElem? hwf hu, applied_succ hu, latestFsStore_append, Option.or_assoc]

/-- Settles O54: the run's stores decide each byte, and the data read returns the byte at the cursor. -/
theorem fsContentIsTheLatestWrites : Obligations.FsContentIsTheLatestWrites := by
  intro c n s t hwf h
  obtain ⟨hwft, hsize⟩ := runWith_fsDev_wf hwf h
  refine ⟨runWith_fsDev_getElem? hwf h, fun hlt => ⟨_, t.fsDev.dataByte, exec_dataReadOp .fs t,
    readDataPort_reply .fs t, ?_⟩⟩
  have hin : t.fsDev.inContent = true := (Device.inContent_iff _).2 (hsize ▸ hlt)
  rw [← runWith_fsDev_getElem? hwf h, Device.getElem?_cursor hwft hin]

/-- Settles O55: the write leaves its byte at `k`, the run stores no other there, and the seek and the read find it. -/
theorem fsWriteIsReadBackLater : Obligations.FsWriteIsReadBackLater := by
  intro c n k v s t u hwf hcursor hk hwrite hrun hnone hflag
  obtain rfl : t = writeDataPort .fs v s := exec_next_iff.1 hwrite
  subst hcursor
  have hsame := sameSizes_writeDataPort .fs v s .fs
  obtain ⟨hstored, -, -⟩ := writeDataPort_inside (id := .fs) hwf hk v
  obtain ⟨hwfu, hsize⟩ := runWith_fsDev_wf (Device.wf_of_sameSize hsame hwf) hrun
  have hsizes : u.fsDev.size = s.fsDev.size := hsize.trans hsame.1
  have hbyte := runWith_fsDev_getElem? (Device.wf_of_sameSize hsame hwf) hrun s.fsDev.cursor.toNat
  rw [hnone, Option.none_or] at hbyte
  obtain ⟨hreply, hend⟩ := readDataPort_after_seekSeq (id := .fs) hwfu hflag
    (k := s.fsDev.cursor) (by rw [State.dev_fs, hsizes]; exact hk)
  refine ⟨readDataPort .fs (execNexts (seekSeq .fs s.fsDev.cursor) u), ?_, hreply.trans (hbyte.trans hstored), hend⟩
  rw [execSeq_eq, execNexts_append]
  rfl

end Machine
end Sys2Proof
end
